-- ==== Sys2Proof/Word.lean ====
section
/-! DEFINITION. The word types of the block, by the widths the spec gives them
(00_scope.md R9, 10_state.md, 30_encoding.md R61). All values are unsigned (R11) and all
arithmetic wraps at its width (R12): BitVec arithmetic. -/

namespace Sys2Proof

/-- An 8-bit value: a command field, a relay mask, the relay buffer, one byte of a frame. -/
abbrev Byte := BitVec 8

/-- A 16-bit display word (R18). -/
abbrev DisplayWord := BitVec 16

/-- A 24-bit frame `{RB:8, W:16}` (R49, R88), and the chain's shift state (R40). -/
abbrev Frame := BitVec 24

/-- A 32-bit value: RESULT, a time, a timeout, a threshold, the accumulator. -/
abbrev Word32 := BitVec 32

/-- A 64-bit command word `{OP:8, A:8, B:8, C:8, T:32}` (R61). -/
abbrev CommandWord := BitVec 64

end Sys2Proof
end

