-- ==== Sys2Proof/Config.lean ====
section
/-! DEFINITION. What an implementation fixes: the parameters the spec leaves open
(00_scope.md R10) as one plain-data record. A machine state carries the record of its instance,
so a statement about every state is a statement about every parameter set
(log entry 1). The tables computed from it are in Machine/Tables.lean. -/

namespace Sys2Proof

/-- The eight segments of a digit (10_state.md R18; the letters are general knowledge, R16). -/
inductive Segment where
  | a | b | c | d | e | f | g | dp
deriving DecidableEq, Repr

/-- SEG_BIT (R18, R19): the display-word bit that drives each segment. -/
structure SegmentMap where
  a : Fin 16
  b : Fin 16
  c : Fin 16
  d : Fin 16
  e : Fin 16
  f : Fin 16
  g : Fin 16
  dp : Fin 16
deriving DecidableEq, Repr

/-- TMASK_INIT(i) and TTIME_INIT(i), the configuration of timer i at reset (R10, R46). -/
structure TimerInit where
  relayMask : Byte
  timeoutMs : Word32
deriving DecidableEq, Repr

/-- The parameters of a model instance (R10). Ranges that are plain facts about one parameter are
in its type: pin numbers below 16 (R19), message codes in 0..16 (R26), SMOOTH_SHIFT in 0..31 (R36).
N_TIMERS is the number of entries of `timerInit` (R31). -/
structure Params where
  segBit : SegmentMap
  selBit : Vector (Fin 16) 4
  glyph : Vector (List Segment) 17
  msg : Vector (Vector (Fin 17) 4) 4
  timerInit : List TimerInit
  smoothShift : Fin 32
  thLowerInit : Word32
  thUpperInit : Word32
  thStoppedInit : Word32
deriving DecidableEq, Repr

end Sys2Proof
end

