-- ==== Sys2Proof/Machine/Tables.lean ====
section
/-! DEFINITION. The read-only tables of the block, computed from its parameters (10_state.md
R18 to R26), the legality of a parameter set (R19, R22, R23, R31), and the test-only parameter set
INSTANCE_T (R45). -/

namespace Sys2Proof

/-- The segments, in the order of R18. -/
def Segment.all : List Segment := [.a, .b, .c, .d, .e, .f, .g, .dp]

/-- SEG_BIT(s) (R18). -/
def SegmentMap.bit (m : SegmentMap) : Segment → Fin 16
  | .a => m.a
  | .b => m.b
  | .c => m.c
  | .d => m.d
  | .e => m.e
  | .f => m.f
  | .g => m.g
  | .dp => m.dp

/-- The OR of `bit(i)` over the listed word bits (R11, R22). -/
def orBits (l : List (Fin 16)) : DisplayWord :=
  l.foldr (fun i w => BitVec.twoPow 16 i.val ||| w) 0

namespace Params

/-- N_TIMERS (R31). -/
def nTimers (p : Params) : Nat := p.timerInit.length

/-- SYM_BLANK, symbol code 10 (R21). -/
def symBlank : Fin 17 := 10

/-- POL_MASK: the eight segment bits (R22). -/
def polMask (p : Params) : DisplayWord := orBits (Segment.all.map p.segBit.bit)

/-- LIT(k): the bits of the lit segments of symbol k (R22). -/
def lit (p : Params) (k : Fin 17) : DisplayWord := orBits ((p.glyph.get k).map p.segBit.bit)

/-- CT[k], the CharacterTable: `POL_MASK ^ LIT(k)` (R22). -/
def ct (p : Params) (k : Fin 17) : DisplayWord := p.polMask ^^^ p.lit k

/-- DST[q], the DigitSelectTable: `bit(SEL_BIT(q))` (R24). -/
def dst (p : Params) (q : Fin 4) : DisplayWord := BitVec.twoPow 16 (p.selBit.get q).val

/-- DP_MASK: the decimal-point bit (R25). -/
def dpMask (p : Params) : DisplayWord := BitVec.twoPow 16 (p.segBit.bit .dp).val

/-- SELMASK_ALL: the four select bits (R20). -/
def selMaskAll (p : Params) : DisplayWord := p.dst 0 ||| p.dst 1 ||| p.dst 2 ||| p.dst 3

/-- UNUSED_MASK: the bits that drive no segment and no select line (R18). -/
def unusedMask (p : Params) : DisplayWord := ~~~(p.polMask ||| p.selMaskAll)

/-- The word of a blank digit at position q with its select bit set (R46). -/
def blankWord (p : Params) (q : Fin 4) : DisplayWord := p.ct symBlank ||| p.dst q

/-- A legal parameter set: the twelve pins distinct and the golden vector (R19), no glyph with a
decimal point (R22), a blank that lights nothing (R23), 1 to 256 timers (R31). -/
abbrev Legal (p : Params) : Prop :=
  (Segment.all.map p.segBit.bit ++ p.selBit.toList).Nodup ∧
  p.ct 3 ||| p.dst 0 = 0x6600#16 ∧
  (∀ g ∈ p.glyph.toList, Segment.dp ∉ g) ∧
  p.glyph.get symBlank = [] ∧
  1 ≤ p.nTimers ∧ p.nTimers ≤ 256

end Params

/-- The reference glyphs (R23; general knowledge, a default and not a claim about the board). -/
def referenceGlyphs : Vector (List Segment) 17 := #v[
  [.a, .b, .c, .d, .e, .f],
  [.b, .c],
  [.a, .b, .d, .e, .g],
  [.a, .b, .c, .d, .g],
  [.b, .c, .f, .g],
  [.a, .c, .d, .f, .g],
  [.a, .c, .d, .e, .f, .g],
  [.a, .b, .c],
  [.a, .b, .c, .d, .e, .f, .g],
  [.a, .b, .c, .d, .f, .g],
  [],
  [.a, .b, .c, .d, .e, .f],
  [.c, .e, .g],
  [.a, .e, .f, .g],
  [.a, .d, .e, .f, .g],
  [.e, .g],
  [.d]]

/-- The message rows BLANK, ON, OFF, ERR (R26). -/
def decidedMessages : Vector (Vector (Fin 17) 4) 4 := #v[
  #v[10, 10, 10, 10],
  #v[10, 10, 11, 12],
  #v[10, 11, 13, 13],
  #v[10, 14, 15, 15]]

/-- INSTANCE_T (R45): the spec's test-only parameter set; it is not the board's pin map. -/
def instanceT : Params where
  segBit := ⟨0, 1, 2, 3, 10, 9, 4, 13⟩
  selBit := #v[14, 11, 12, 15]
  glyph := referenceGlyphs
  msg := decidedMessages
  timerInit := List.replicate 8 ⟨0x00, 0⟩
  smoothShift := 2
  thLowerInit := 10000
  thUpperInit := 20000
  thStoppedInit := 500000

end Sys2Proof
end

