-- ==== Sys2Proof/Machine/State.lean ====
section
/-! DEFINITION. The machine's state as plain data: every register of 10_state.md, the pins, the
external shift-register chain, the events waiting at the two inputs, and the parameters of the
instance. Then the reasons a step could stop, and the state after reset (R46). -/

namespace Sys2Proof.Machine

/-- One RelayTimer `T[i]` (R32). `active` false is the source's Idle, true its Active (R94). -/
structure Timer where
  relayMask : Byte
  timeoutMs : Word32
  startTimestamp : Word32
  active : Bool
deriving DecidableEq, Repr

/-- F_STATE (R35): STOPPED = 0, LOW = 1, HIGH = 2; the code 3 is never written. -/
inductive FreqState where
  | stopped
  | low
  | high
deriving DecidableEq, Repr

/-- The fault causes of 60_exceptions.md R113, other than NONE. -/
inductive FaultCause where
  | illegalOpcode
  | reservedField
  | positionRange
  | symbolRange
  | digitsRange
  | messageRange
  | timerIdRange
  | selectorRange
  | thresholdOrder
deriving DecidableEq, Repr

/-- The pins DATA, CLK and LATCH (R39). The fourth pin, OE_N, always equals the register OE and is
read from it (`State.oeN`). -/
structure Pins where
  data : Bool
  clk : Bool
  latch : Bool
deriving DecidableEq, Repr

/-- One level the block drives onto an output pin, in the order of 42_serial.md R88. -/
inductive PinWrite where
  | data (level : Bool)
  | clk (level : Bool)
  | latch (level : Bool)
  | oeN (level : Bool)
deriving DecidableEq, Repr

/-- The external chain (R40): CHAIN, the 24-bit shift state, and the three latched output
registers. -/
structure Chain where
  shift : Frame
  outRelay : Byte
  outHi : Byte
  outLo : Byte
deriving DecidableEq, Repr

/-- An event at the block's inputs (R8, R130; reset is 70_reset_and_hazards.md R128, power loss
60_exceptions.md R127). A reset names the command word being presented at that moment, if one is:
it is discarded. A power cycle also names what the external chain holds after power-up, which the
spec leaves at any value. -/
inductive Input where
  | command (w : CommandWord)
  | edge (nowUs : Word32)
  | reset (presented : Option CommandWord)
  | powerCycle (chain : Chain) (presented : Option CommandWord)
deriving DecidableEq, Repr

/-- The state of the machine. The first group is the block's registers (R17 to R38), the second its
pins and the external chain (R39, R40). The last three fields are the model's own: `trace` the
pin trace of R130, `inputs` the events not yet taken (R130), `cfg` the parameters of the instance
(R10, R43), which no step changes. -/
structure State where
  db : Vector DisplayWord 4
  colon : Bool
  rb : Byte
  oe : Bool
  timers : List Timer
  fLast : Word32
  fAcc : Word32
  fSp : Word32
  fState : FreqState
  thLower : Word32
  thUpper : Word32
  thStopped : Word32
  fault : Bool
  cause : BitVec 4
  result : Word32
  pins : Pins
  chain : Chain
  trace : List PinWrite
  inputs : List Input
  cfg : Params
deriving DecidableEq, Repr

/-- Why a step could stop: nothing does. A fault of this hardware is a state the machine goes on
from (60_exceptions.md R115, R116: FAULT and CAUSE are written and the block ignores what follows),
so it is a next state, and no step of the machine ends in an outcome of this type. Safe: there is
no reason to name. -/
inductive Fault where
deriving DecidableEq, Repr

/-- Why an instruction could be refused. -/
inductive Refusal where
  /-- The instruction has no meaning in this model. Raised by an arm of exec only; safe. No arm
  raises it. -/
  | notModelled (mnemonic : String)
deriving DecidableEq, Repr

/-- The timer pool at reset (R46): TMASK_INIT and TTIME_INIT of each timer, start 0, Idle. -/
def initialTimers (p : Params) : List Timer :=
  p.timerInit.map fun init => ⟨init.relayMask, init.timeoutMs, 0, false⟩

/-- The state after a reset of an instance with parameters `p` whose external chain holds `ch`
(R46, R128): every register of the block at its reset value, the chain as it is, nothing driven
onto the pins yet and no event waiting. -/
def State.powerUp (p : Params) (ch : Chain) : State where
  db := #v[p.blankWord 0, p.blankWord 1, p.blankWord 2, p.blankWord 3]
  colon := false
  rb := 0
  oe := true
  timers := initialTimers p
  fLast := 0
  fAcc := 0
  fSp := 0
  fState := .stopped
  thLower := p.thLowerInit
  thUpper := p.thUpperInit
  thStopped := p.thStoppedInit
  fault := false
  cause := 0
  result := 0
  pins := ⟨false, false, true⟩
  chain := ch
  trace := []
  inputs := []
  cfg := p

/-- The contents the model names for the external chain after power-up, which the spec leaves at any
value (R46). DESIGN CHOICE, unsafe (log entry 3): zero. -/
def Chain.named : Chain := ⟨0, 0, 0, 0⟩

/-- The machine right after reset (R46). The spec leaves the parameters and the external chain open:
DESIGN CHOICE, unsafe (log entries 2 and 3): INSTANCE_T and a chain of zeros. Statements about
every legal instance are stated of `State.powerUp`. -/
def State.reset : State := State.powerUp instanceT Chain.named

end Sys2Proof.Machine
end

