-- ==== Sys2Proof/Machine/Flags.lean ====
section
/-! DEFINITION. The status flags and coded values a program reads: the cause codes (60_exceptions.md
R113), the FSM code (10_state.md R35), the STATUS word (45_status.md R111), and zero extension of
one-bit results (R52). -/

namespace Sys2Proof.Machine

/-- The cause code of a fault (R113). Code 0 is NONE; 10 to 15 are never raised. -/
def FaultCause.code : FaultCause → BitVec 4
  | .illegalOpcode => 1
  | .reservedField => 2
  | .positionRange => 3
  | .symbolRange => 4
  | .digitsRange => 5
  | .messageRange => 6
  | .timerIdRange => 7
  | .selectorRange => 8
  | .thresholdOrder => 9

/-- The two-bit code of F_STATE (R35). -/
def FreqState.code : FreqState → BitVec 2
  | .stopped => 0
  | .low => 1
  | .high => 2

/-- `zext_32` of a flag (R11, R52). -/
def flagResult (b : Bool) : Word32 := (BitVec.ofBool b).setWidth 32

/-- The STATUS word `{0:25, COLON:1, OE:1, FAULT:1, CAUSE:4}` (R111). -/
def statusWord (s : State) : Word32 :=
  0#25 ++ BitVec.ofBool s.colon ++ BitVec.ofBool s.oe ++ BitVec.ofBool s.fault ++ s.cause

/-- TH_LOWER < TH_UPPER < TH_STOPPED, the precondition of FTICK (R106, R113). -/
def State.thresholdsOrdered (s : State) : Bool :=
  s.thLower < s.thUpper && s.thUpper < s.thStopped

end Sys2Proof.Machine
end

