-- ==== Sys2Proof/Syntax.lean ====
section
/-! DEFINITION. The commands of the block: one constructor per row of spec/opcode_table.json
(30_encoding.md R64). Every command has the one format of R61 and a decoder keeps every field of
the word (R70: range checks and reserved-field checks belong to execution), so every
constructor carries all four fields, the reserved ones too. -/

namespace Sys2Proof

/-- The operand fields of a command word (R61): A is bits 55:48, B bits 47:40, C bits 39:32
(reserved in every command), T bits 31:0. -/
structure Fields where
  a : Byte
  b : Byte
  c : Byte
  t : Word32
deriving DecidableEq, Repr

/-- The decoded command term: the mnemonic with its operand fields (R8, R64). What each field
means to a command is said in its rule; a field the command does not use is reserved (R67). -/
inductive Instr where
  | digit (f : Fields)     -- R74: A position, B symbol
  | number (f : Fields)    -- R75: A digit count, T[15:0] value
  | message (f : Fields)   -- R76: A message id
  | colon (f : Fields)     -- R77: A[0] enabled
  | tcolon (f : Fields)    -- R78
  | dbread (f : Fields)    -- R79: A position
  | rset (f : Fields)      -- R80: A mask, B state
  | rsetn (f : Fields)     -- R83: A relay number, B[0] on
  | rget (f : Fields)      -- R84: A mask
  | rison (f : Fields)     -- R85: A relay number
  | rmask (f : Fields)     -- R82: A relay number
  | renable (f : Fields)   -- R86
  | rdisable (f : Fields)  -- R87
  | refresh (f : Fields)   -- R90
  | tcfg (f : Fields)      -- R97: A timer, B relay mask, T timeout in ms
  | tstart (f : Fields)    -- R98: A timer, T now in ms
  | ttick (f : Fields)     -- R99: A timer, T now in ms
  | tstop (f : Fields)     -- R100: A timer
  | trem (f : Fields)      -- R101: A timer, T now in ms
  | tactive (f : Fields)   -- R102: A timer
  | fsample (f : Fields)   -- R104: T now in us; an edge event of agent E
  | ftick (f : Fields)     -- R106: T now in us
  | fsetth (f : Fields)    -- R109: A threshold selector, T threshold
  | fread (f : Fields)     -- R110: A read selector
  | status (f : Fields)    -- R111
deriving DecidableEq, Repr

/-- The block's two agents (60_exceptions.md R122): C presents commands on the command port,
E presents rising edges of the frequency input. -/
inductive Agent where
  | C
  | E
deriving DecidableEq, Repr

/-- The six families of commands (R65). -/
inductive Family where
  | display
  | relay
  | serial
  | relayTimer
  | frequencySwitch
  | status
deriving DecidableEq, Repr

end Sys2Proof
end

