-- ==== Sys2Proof/Decode.lean ====
section
/-! DEFINITION. Decoding and encoding of command words (30_encoding.md): the opcode map of R64,
the fields of R61, the reserved bits of R67. -/

namespace Sys2Proof

/-- OP, bits 63:56 of a command word (R61). -/
def opByte (w : CommandWord) : Byte := w.extractLsb' 56 8

/-- The four operand fields of a command word, each as it stands (R61, R62). -/
def fieldsOf (w : CommandWord) : Fields where
  a := w.extractLsb' 48 8
  b := w.extractLsb' 40 8
  c := w.extractLsb' 32 8
  t := w.extractLsb' 0 32

/-- `word = {OP:8, A:8, B:8, C:8, T:32}` (R61). -/
def assembleWord (op : Byte) (f : Fields) : CommandWord :=
  op ++ f.a ++ f.b ++ f.c ++ f.t

/-- What a decoder answers on a 64-bit word (R70): a row of the opcode map with its fields, or the
verdict ILLEGAL_OPCODE with the OP that names no row. -/
inductive Decoded where
  | term (i : Instr)
  | illegalOpcode (op : Byte)
deriving DecidableEq, Repr

/-- The decoder (R64, R66, R70): total on every 64-bit word; only OP decides. -/
def decode (w : CommandWord) : Decoded :=
  match (opByte w).toNat with
  | 0x10 => .term (.digit (fieldsOf w))
  | 0x11 => .term (.number (fieldsOf w))
  | 0x12 => .term (.message (fieldsOf w))
  | 0x13 => .term (.colon (fieldsOf w))
  | 0x14 => .term (.tcolon (fieldsOf w))
  | 0x15 => .term (.dbread (fieldsOf w))
  | 0x20 => .term (.rset (fieldsOf w))
  | 0x21 => .term (.rsetn (fieldsOf w))
  | 0x22 => .term (.rget (fieldsOf w))
  | 0x23 => .term (.rison (fieldsOf w))
  | 0x24 => .term (.rmask (fieldsOf w))
  | 0x25 => .term (.renable (fieldsOf w))
  | 0x26 => .term (.rdisable (fieldsOf w))
  | 0x30 => .term (.refresh (fieldsOf w))
  | 0x40 => .term (.tcfg (fieldsOf w))
  | 0x41 => .term (.tstart (fieldsOf w))
  | 0x42 => .term (.ttick (fieldsOf w))
  | 0x43 => .term (.tstop (fieldsOf w))
  | 0x44 => .term (.trem (fieldsOf w))
  | 0x45 => .term (.tactive (fieldsOf w))
  | 0x50 => .term (.fsample (fieldsOf w))
  | 0x51 => .term (.ftick (fieldsOf w))
  | 0x52 => .term (.fsetth (fieldsOf w))
  | 0x53 => .term (.fread (fieldsOf w))
  | 0x60 => .term (.status (fieldsOf w))
  | _ => .illegalOpcode (opByte w)

/-- The opcode of each command (R64). -/
def Instr.opcode : Instr → Byte
  | .digit _ => 0x10
  | .number _ => 0x11
  | .message _ => 0x12
  | .colon _ => 0x13
  | .tcolon _ => 0x14
  | .dbread _ => 0x15
  | .rset _ => 0x20
  | .rsetn _ => 0x21
  | .rget _ => 0x22
  | .rison _ => 0x23
  | .rmask _ => 0x24
  | .renable _ => 0x25
  | .rdisable _ => 0x26
  | .refresh _ => 0x30
  | .tcfg _ => 0x40
  | .tstart _ => 0x41
  | .ttick _ => 0x42
  | .tstop _ => 0x43
  | .trem _ => 0x44
  | .tactive _ => 0x45
  | .fsample _ => 0x50
  | .ftick _ => 0x51
  | .fsetth _ => 0x52
  | .fread _ => 0x53
  | .status _ => 0x60

/-- The family of each command (R65). -/
def Instr.family : Instr → Family
  | .digit _ | .number _ | .message _ | .colon _ | .tcolon _ | .dbread _ => .display
  | .rset _ | .rsetn _ | .rget _ | .rison _ | .rmask _ | .renable _ | .rdisable _ => .relay
  | .refresh _ => .serial
  | .tcfg _ | .tstart _ | .ttick _ | .tstop _ | .trem _ | .tactive _ => .relayTimer
  | .fsample _ | .ftick _ | .fsetth _ | .fread _ => .frequencySwitch
  | .status _ => .status

/-- The family that the high nibble of an opcode names (R65): 1 to 6, and none for the others. -/
def familyOfNibble (nibble : BitVec 4) : Option Family :=
  match nibble.toNat with
  | 1 => some .display
  | 2 => some .relay
  | 3 => some .serial
  | 4 => some .relayTimer
  | 5 => some .frequencySwitch
  | 6 => some .status
  | _ => none

/-- The operand fields a command carries. -/
def Instr.fields : Instr → Fields
  | .digit f | .number f | .message f | .colon f | .tcolon f | .dbread f
  | .rset f | .rsetn f | .rget f | .rison f | .rmask f | .renable f | .rdisable f
  | .refresh f
  | .tcfg f | .tstart f | .ttick f | .tstop f | .trem f | .tactive f
  | .fsample f | .ftick f | .fsetth f | .fread f
  | .status f => f

/-- The word of a command (R61, R64). -/
def encode (i : Instr) : CommandWord := assembleWord i.opcode i.fields

/-- The agent that presents each command (R64, R66): FSAMPLE is agent E's alone, every other
command agent C's. -/
def Instr.agent : Instr → Agent
  | .fsample _ => .E
  | .digit _ | .number _ | .message _ | .colon _ | .tcolon _ | .dbread _
  | .rset _ | .rsetn _ | .rget _ | .rison _ | .rmask _ | .renable _ | .rdisable _
  | .refresh _
  | .tcfg _ | .tstart _ | .ttick _ | .tstop _ | .trem _ | .tactive _
  | .ftick _ | .fsetth _ | .fread _
  | .status _ => .C

/-- Every bit of the four fields. -/
def Fields.allOnes : Fields := ⟨0xFF, 0xFF, 0xFF, 0xFFFFFFFF⟩

/-- The reserved bits of each command, field by field: 1 where the bit must be 0
(R67; `reserved_zero_mask` of the opcode table). -/
def Instr.reservedMask : Instr → Fields
  | .digit _ => ⟨0x00, 0x00, 0xFF, 0xFFFFFFFF⟩
  | .number _ => ⟨0x00, 0xFF, 0xFF, 0xFFFF0000⟩
  | .message _ => ⟨0x00, 0xFF, 0xFF, 0xFFFFFFFF⟩
  | .colon _ => ⟨0xFE, 0xFF, 0xFF, 0xFFFFFFFF⟩
  | .tcolon _ => .allOnes
  | .dbread _ => ⟨0x00, 0xFF, 0xFF, 0xFFFFFFFF⟩
  | .rset _ => ⟨0x00, 0x00, 0xFF, 0xFFFFFFFF⟩
  | .rsetn _ => ⟨0x00, 0xFE, 0xFF, 0xFFFFFFFF⟩
  | .rget _ => ⟨0x00, 0xFF, 0xFF, 0xFFFFFFFF⟩
  | .rison _ => ⟨0x00, 0xFF, 0xFF, 0xFFFFFFFF⟩
  | .rmask _ => ⟨0x00, 0xFF, 0xFF, 0xFFFFFFFF⟩
  | .renable _ => .allOnes
  | .rdisable _ => .allOnes
  | .refresh _ => .allOnes
  | .tcfg _ => ⟨0x00, 0x00, 0xFF, 0x00000000⟩
  | .tstart _ => ⟨0x00, 0xFF, 0xFF, 0x00000000⟩
  | .ttick _ => ⟨0x00, 0xFF, 0xFF, 0x00000000⟩
  | .tstop _ => ⟨0x00, 0xFF, 0xFF, 0xFFFFFFFF⟩
  | .trem _ => ⟨0x00, 0xFF, 0xFF, 0x00000000⟩
  | .tactive _ => ⟨0x00, 0xFF, 0xFF, 0xFFFFFFFF⟩
  | .fsample _ => ⟨0xFF, 0xFF, 0xFF, 0x00000000⟩
  | .ftick _ => ⟨0xFF, 0xFF, 0xFF, 0x00000000⟩
  | .fsetth _ => ⟨0x00, 0xFF, 0xFF, 0x00000000⟩
  | .fread _ => ⟨0x00, 0xFF, 0xFF, 0xFFFFFFFF⟩
  | .status _ => .allOnes

/-- No bit of `f` is 1 where the mask `m` is 1. -/
def Fields.clearOf (f m : Fields) : Bool :=
  f.a &&& m.a == 0 && f.b &&& m.b == 0 && f.c &&& m.c == 0 && f.t &&& m.t == 0

/-- Every reserved bit of the command is 0 (R67). -/
def Instr.reservedClear (i : Instr) : Bool := i.fields.clearOf i.reservedMask

/-- The word of an edge event (R61, R104): OP = 0x50, A = B = C = 0, T the time in microseconds. -/
def edgeFields (nowUs : Word32) : Fields := ⟨0, 0, 0, nowUs⟩

/-- The host's reading of the opcode table's words: the `nbits` low bits of `w` are the command word,
every bit above them is 0, and the decoder reads the 64-bit word whole (R50, R69). -/
def decodeTableWord (nbits w : Nat) : Option Instr :=
  match decode (BitVec.ofNat 64 (w % 2 ^ nbits)) with
  | .term i => some i
  | .illegalOpcode _ => none

end Sys2Proof
end

