-- ==== Sys2Proof/Machine/Operands.lean ====
section
/-! DEFINITION. Operand assembly and the range checks of an operand (30_encoding.md R62, R64;
60_exceptions.md R113, R114 step 4): each reader answers none when the value is out of range, and
no index wraps (20_memory.md R48). -/

namespace Sys2Proof.Machine

/-- A digit position, 0..3 (R62). -/
def position? (a : Byte) : Option (Fin 4) :=
  if h : a.toNat < 4 then some ⟨a.toNat, h⟩ else none

/-- A symbol code, 0..16 (R62). -/
def symbol? (b : Byte) : Option (Fin 17) :=
  if h : b.toNat < 17 then some ⟨b.toNat, h⟩ else none

/-- A digit count, 1..4 (R62, R75). -/
def digitCount? (a : Byte) : Option Nat :=
  if 1 ≤ a.toNat ∧ a.toNat ≤ 4 then some a.toNat else none

/-- A message id, 0..3 (R62). -/
def message? (a : Byte) : Option (Fin 4) :=
  if h : a.toNat < 4 then some ⟨a.toNat, h⟩ else none

/-- The threshold selectors of FSETTH (R109). -/
inductive ThresholdSel where
  | lower
  | upper
  | stopped
deriving DecidableEq, Repr

/-- A threshold selector, 0..2 (R62, R109). -/
def thresholdSel? (a : Byte) : Option ThresholdSel :=
  match a.toNat with
  | 0 => some .lower
  | 1 => some .upper
  | 2 => some .stopped
  | _ => none

/-- The read selectors of FREAD (R110). -/
inductive ReadSel where
  | lower
  | upper
  | stopped
  | sp
  | acc
  | last
  | state
deriving DecidableEq, Repr

/-- A read selector, 0..6 (R62, R110). -/
def readSel? (a : Byte) : Option ReadSel :=
  match a.toNat with
  | 0 => some .lower
  | 1 => some .upper
  | 2 => some .stopped
  | 3 => some .sp
  | 4 => some .acc
  | 5 => some .last
  | 6 => some .state
  | _ => none

/-- N_TIMERS of this machine: the size of its pool (R31). -/
def State.nTimers (s : State) : Nat := s.timers.length

/-- The timer a command names: none when the id is N_TIMERS or more (R31, R48). -/
def State.timer? (s : State) (a : Byte) : Option Timer := s.timers[a.toNat]?

/-- A boolean operand: bit 0 of its field (R62). -/
def boolOperand (f : Byte) : Bool := f.getLsbD 0

/-- The 16-bit value of NUMBER, T[15:0] (R62, R75). -/
def valueOperand (t : Word32) : BitVec 16 := t.setWidth 16

/-- `relay_mask(n)` (41_relay.md R81): bit n for 1..7, bit 0 for every other relay number. -/
def relayMask (n : Byte) : Byte :=
  if 1 ≤ n.toNat ∧ n.toNat ≤ 7 then BitVec.twoPow 8 n.toNat else BitVec.twoPow 8 0

/-- RELAY_ON (R9). -/
def relayOn : Byte := 0xFF

/-- RELAY_OFF (R9). -/
def relayOff : Byte := 0x00

/-- Elapsed time, an unsigned 32-bit difference that is right across one wrap of the counter
(43_timer.md R95, 44_freq.md R106). -/
def elapsed (now start : Word32) : Word32 := now - start

end Sys2Proof.Machine
end

