-- ==== Sys2Proof/Machine/Ops.lean ====
section
/-! DEFINITION. The named operations over the machine's registers that more than one meaning uses:
completing a command, taking a fault, being halted, the reset that alone leaves a fault, the
checks before a command, the digit write, the masked relay update and the drive of a pin. -/

namespace Sys2Proof.Machine

/-- The outcome type of every meaning. -/
abbrev Out := Host.Outcome State Fault Refusal

/-- `RESULT <- r` (R13, R63). -/
def State.setResult (r : Word32) (s : State) : State := { s with result := r }

/-- A command completes: its effects are in `s`, and RESULT takes the value its rule gives, 0 when
the rule gives none (R63). -/
def complete (r : Word32) (s : State) : Out := .next (s.setResult r)

/-- Taking a fault (R115): FAULT, CAUSE and RESULT are written and nothing else. There is no saved
operand, no handler and no vector. -/
def State.enterFault (c : FaultCause) (s : State) : State :=
  { s with fault := true, cause := c.code, result := 0 }

/-- `raise Fault(c)` (R13, R115): a next state, the halted machine. -/
def raiseFault (c : FaultCause) (s : State) : Out := .next (s.enterFault c)

/-- A command ignored because the block is halted: RESULT <- 0 and no state changes (R63, R116). -/
def ignored (s : State) : Out := .next (s.setResult 0)

/-- The only return from a fault (R117): the reset event (R128). Every register of the block takes
its reset value at once and the pins their reset levels; the external chain keeps what it holds
(no edge reaches it, log entry 9); the events that wait and the parameters stay. -/
def State.resetBlock (s : State) : State :=
  { State.powerUp s.cfg s.chain with
    trace := s.trace ++ [.data false, .clk false, .latch true, .oeN true]
    inputs := s.inputs }

/-- Steps 1 and 3 of the check order (R114) for every command but STATUS: a halted block ignores the
command; a reserved bit that is 1 faults; else `body` runs. Step 2, the opcode, is the port's
(Machine/Port.lean), and the range and state checks are `body`'s. -/
def checked (i : Instr) (s : State) (body : Out) : Out :=
  if s.fault then ignored s
  else if i.reservedClear then body
  else raiseFault .reservedField s

/-- `write_digit(p, k)` (R73): the whole word is replaced and its select bit set. -/
def State.writeDigit (p : Fin 4) (k : Fin 17) (s : State) : State :=
  { s with db := s.db.set p.val (s.cfg.ct k ||| s.cfg.dst p) p.isLt }

/-- The positions, leftmost first (R17). -/
def positions : List (Fin 4) := [0, 1, 2, 3]

/-- The masked update `(RB & ~m) | (v & m)` (R80). -/
def maskedUpdate (rb m v : Byte) : Byte := (rb &&& ~~~m) ||| (v &&& m)

/-- `relay_update(m, v)` (R80), the sole way RB changes (R28). -/
def State.relayUpdate (m v : Byte) (s : State) : State :=
  { s with rb := maskedUpdate s.rb m v }

/-- The pin OE_N always equals OE (R39). -/
def State.oeN (s : State) : Bool := s.oe

/-- What the chain does when CLK goes to `level` (R40): on a rising edge it shifts DATA in at bit 0. -/
def Chain.onClk (ch : Chain) (pins : Pins) (level : Bool) : Chain :=
  if !pins.clk && level then
    { ch with shift := ch.shift.extractLsb' 0 23 ++ BitVec.ofBool pins.data }
  else ch

/-- What the chain does when LATCH goes to `level` (R40): on a rising edge all three output registers
take the shift state at once. -/
def Chain.onLatch (ch : Chain) (pins : Pins) (level : Bool) : Chain :=
  if !pins.latch && level then
    { ch with
      outRelay := ch.shift.extractLsb' 0 8
      outHi := ch.shift.extractLsb' 8 8
      outLo := ch.shift.extractLsb' 16 8 }
  else ch

/-- The levels of the three serial pins after one write. OE_N is not among them. -/
def Pins.write (pins : Pins) : PinWrite → Pins
  | .data b => { pins with data := b }
  | .clk b => { pins with clk := b }
  | .latch b => { pins with latch := b }
  | .oeN _ => pins

/-- What one pin write does to the external chain (R40). -/
def Chain.onWrite (ch : Chain) (pins : Pins) : PinWrite → Chain
  | .data _ => ch
  | .clk b => ch.onClk pins b
  | .latch b => ch.onLatch pins b
  | .oeN _ => ch

/-- The OE register after one pin write: OE_N is OE (R30, R39). -/
def oeAfter (oe : Bool) : PinWrite → Bool
  | .oeN b => b
  | .data _ | .clk _ | .latch _ => oe

/-- The block drives one output pin: the pin takes the level, the chain answers its edge, and the pin
trace grows by the write (R39, R40, R130). -/
def State.drive (s : State) (w : PinWrite) : State :=
  { s with
    pins := s.pins.write w
    chain := s.chain.onWrite s.pins w
    oe := oeAfter s.oe w
    trace := s.trace ++ [w] }

/-- The block drives a list of pin writes, in order. -/
def State.driveAll (s : State) (ws : List PinWrite) : State := ws.foldl State.drive s

/-- `T[i] <- t` for the timer a command names (R32). -/
def State.setTimer (a : Byte) (t : Timer) (s : State) : State :=
  { s with timers := s.timers.set a.toNat t }

end Sys2Proof.Machine
end

