-- ==== Sys2Proof/Machine/Display.lean ====
section
/-! DEFINITION. The display family (40_display.md R73 to R79). -/

namespace Sys2Proof.Machine

/-- DIGIT (R74). The position is checked before the symbol (R114 step 4). -/
def execDigit (f : Fields) (s : State) : Out :=
  checked (.digit f) s <|
    match position? f.a with
    | none => raiseFault .positionRange s
    | some p =>
      match symbol? f.b with
      | none => raiseFault .symbolRange s
      | some k => complete 0 (s.writeDigit p k)

/-- The symbol NUMBER shows at position p of a d-digit number: `(v / 10^(d-1-p)) mod 10` (R75). -/
def digitSymbol (v : Nat) (d : Nat) (p : Fin 4) : Fin 17 :=
  ⟨v / 10 ^ (d - 1 - p.val) % 10, Nat.lt_trans (Nat.mod_lt _ (by decide)) (by decide)⟩

/-- NUMBER's writes: the d low-order decimal digits of v at positions 0..d-1, most significant first;
the other positions keep their words (R75). -/
def State.writeNumber (d v : Nat) (s : State) : State :=
  (positions.take d).foldl (fun s p => s.writeDigit p (digitSymbol v d p)) s

/-- NUMBER (R75). -/
def execNumber (f : Fields) (s : State) : Out :=
  checked (.number f) s <|
    match digitCount? f.a with
    | none => raiseFault .digitsRange s
    | some d => complete 0 (s.writeNumber d (valueOperand f.t).toNat)

/-- MESSAGE's writes: the four symbols of row m (R26, R76). -/
def State.writeMessage (m : Fin 4) (s : State) : State :=
  positions.foldl (fun s p => s.writeDigit p ((s.cfg.msg.get m).get p)) s

/-- MESSAGE (R76). -/
def execMessage (f : Fields) (s : State) : Out :=
  checked (.message f) s <|
    match message? f.a with
    | none => raiseFault .messageRange s
    | some m => complete 0 (s.writeMessage m)

/-- A display word with the colon bit lit (cleared) or dark (set) and its select bit re-asserted
(R77; the mask is the one of 90_conflicts.md C1). -/
def colonWord (c : Params) (p : Fin 4) (lit : Bool) (w : DisplayWord) : DisplayWord :=
  if lit then (w &&& ~~~c.dpMask) ||| c.dst p else w ||| c.dpMask ||| c.dst p

/-- The colon half of one position (R77). -/
def State.setColonBit (lit : Bool) (s : State) (p : Fin 4) : State :=
  { s with db := s.db.set p.val (colonWord s.cfg p lit (s.db.get p)) p.isLt }

/-- The colon of positions 1 and 2 with the COLON flag (R77, R78). -/
def State.setColon (lit : Bool) (s : State) : State :=
  { [(1 : Fin 4), 2].foldl (State.setColonBit lit) s with colon := lit }

/-- COLON (R77). -/
def execColon (f : Fields) (s : State) : Out :=
  checked (.colon f) s <| complete 0 (s.setColon (boolOperand f.a))

/-- TCOLON (R78): the toggle follows the COLON flag, not the colon bits of DB. -/
def execTcolon (f : Fields) (s : State) : Out :=
  checked (.tcolon f) s <| complete (flagResult (!s.colon)) (s.setColon (!s.colon))

/-- DBREAD (R79). -/
def execDbread (f : Fields) (s : State) : Out :=
  checked (.dbread f) s <|
    match position? f.a with
    | none => raiseFault .positionRange s
    | some p => complete ((s.db.get p).setWidth 32) s

end Sys2Proof.Machine
end

