-- ==== Sys2Proof/Machine/Freq.lean ====
section
/-! DEFINITION. The FrequencySwitch family (44_freq.md R103 to R110): the producer FSAMPLE, an edge
event of agent E, and the consumer's commands. -/

namespace Sys2Proof.Machine

/-- The producer's update (R104): accumulator += delta - smoothedPeriod, smoothedPeriod the
accumulator shifted right by SMOOTH_SHIFT. -/
def State.sample (nowUs : Word32) (s : State) : State :=
  let acc := s.fAcc + elapsed nowUs s.fLast - s.fSp
  { s with fAcc := acc, fSp := acc >>> s.cfg.smoothShift.val, fLast := nowUs }

/-- FSAMPLE (R104): no check and no RESULT; a halted block ignores the edge (R116). The reserved
fields of an edge are always 0 and are not read (log entry 12). -/
def execFsample (f : Fields) (s : State) : Out :=
  if s.fault then .next s else .next (s.sample f.t)

/-- Step 2 of FTICK (R106): the hysteresis over the smoothed period `p`. In HIGH the stopped
threshold is tested first (90_conflicts.md C10). -/
def hysteresis (lower upper stopped p : Word32) : FreqState → FreqState
  | .stopped => if p < stopped then (if upper < p then .low else .high) else .stopped
  | .low => if p < lower then .high else if stopped < p then .stopped else .low
  | .high => if stopped < p then .stopped else if upper < p then .low else .high

/-- F_STATE after an FTICK at `nowUs` (R106): silence forces STOPPED, else the hysteresis decides. -/
def State.nextFreqState (nowUs : Word32) (s : State) : FreqState :=
  if s.thStopped < elapsed nowUs s.fLast then .stopped
  else hysteresis s.thLower s.thUpper s.thStopped s.fSp s.fState

/-- FTICK (R106): unordered thresholds fault. -/
def execFtick (f : Fields) (s : State) : Out :=
  checked (.ftick f) s <|
    if s.thresholdsOrdered then
      complete ((s.nextFreqState f.t).code.setWidth 32)
        { s with fState := s.nextFreqState f.t }
    else raiseFault .thresholdOrder s

/-- One threshold redefined (R109). -/
def State.setThreshold (sel : ThresholdSel) (v : Word32) (s : State) : State :=
  match sel with
  | .lower => { s with thLower := v }
  | .upper => { s with thUpper := v }
  | .stopped => { s with thStopped := v }

/-- FSETTH (R109): the order of the thresholds is not checked here. -/
def execFsetth (f : Fields) (s : State) : Out :=
  checked (.fsetth f) s <|
    match thresholdSel? f.a with
    | none => raiseFault .selectorRange s
    | some sel => complete 0 (s.setThreshold sel f.t)

/-- The register a read selector names (R110). -/
def State.readFreq (s : State) : ReadSel → Word32
  | .lower => s.thLower
  | .upper => s.thUpper
  | .stopped => s.thStopped
  | .sp => s.fSp
  | .acc => s.fAcc
  | .last => s.fLast
  | .state => s.fState.code.setWidth 32

/-- FREAD (R110). -/
def execFread (f : Fields) (s : State) : Out :=
  checked (.fread f) s <|
    match readSel? f.a with
    | none => raiseFault .selectorRange s
    | some sel => complete (s.readFreq sel) s

end Sys2Proof.Machine
end

