-- ==== Sys2Proof/Machine/Relay.lean ====
section
/-! DEFINITION. The relay family and the output-enable gate (41_relay.md R80 to R87). -/

namespace Sys2Proof.Machine

/-- RSET (R80). -/
def execRset (f : Fields) (s : State) : Out :=
  checked (.rset f) s <| complete 0 (s.relayUpdate f.a f.b)

/-- RSETN (R83). -/
def execRsetn (f : Fields) (s : State) : Out :=
  checked (.rsetn f) s <|
    complete 0 (s.relayUpdate (relayMask f.a) (if boolOperand f.b then relayOn else relayOff))

/-- RGET (R84). -/
def execRget (f : Fields) (s : State) : Out :=
  checked (.rget f) s <| complete ((s.rb &&& f.a).setWidth 32) s

/-- RISON (R85). -/
def execRison (f : Fields) (s : State) : Out :=
  checked (.rison f) s <| complete (flagResult (s.rb &&& relayMask f.a != 0)) s

/-- RMASK (R82). -/
def execRmask (f : Fields) (s : State) : Out :=
  checked (.rmask f) s <| complete ((relayMask f.a).setWidth 32) s

/-- RENABLE (R86): OE and its pin go low at once. -/
def execRenable (f : Fields) (s : State) : Out :=
  checked (.renable f) s <| complete 0 (s.drive (.oeN false))

/-- RDISABLE (R87): OE and its pin go high at once. -/
def execRdisable (f : Fields) (s : State) : Out :=
  checked (.rdisable f) s <| complete 0 (s.drive (.oeN true))

end Sys2Proof.Machine
end

