-- ==== Sys2Proof/Machine/Serial.lean ====
section
/-! DEFINITION. The serial family (42_serial.md R88 to R91): the pin protocol of a frame and the
refresh. -/

namespace Sys2Proof.Machine

/-- The bit numbers of a byte, most significant first (R49, R88). -/
def msbFirst : List Nat := [7, 6, 5, 4, 3, 2, 1, 0]

/-- One bit on the pins: DATA set while CLK is low, then a CLK pulse (R88). -/
def bitWrites (b : Bool) : List PinWrite := [.data b, .clk true, .clk false]

/-- One byte on the pins, MSB first (R49, R88). -/
def byteWrites (x : Byte) : List PinWrite := msbFirst.flatMap fun i => bitWrites (x.getLsbD i)

/-- One frame on the pins (R88): LATCH low; the word's low byte, its high byte, the relay byte;
LATCH high. -/
def frameWrites (F : Frame) : List PinWrite :=
  .latch false ::
    (byteWrites (F.extractLsb' 0 8) ++ byteWrites (F.extractLsb' 8 8)
      ++ byteWrites (F.extractLsb' 16 8))
    ++ [.latch true]

/-- `emit_frame(F)` (R13, R88). -/
def State.emitFrame (s : State) (F : Frame) : State := s.driveAll (frameWrites F)

/-- The frame of position p, `{RB:8, DB[p]:16}` (R49, R90). -/
def State.frame (s : State) (p : Fin 4) : Frame := s.rb ++ s.db.get p

/-- The refresh: one frame per position, leftmost first, whatever the digits hold (R90;
90_conflicts.md C4). -/
def State.refreshAll (s : State) : State :=
  positions.foldl (fun s p => s.emitFrame (s.frame p)) s

/-- REFRESH (R90). -/
def execRefresh (f : Fields) (s : State) : Out :=
  checked (.refresh f) s <| complete 0 s.refreshAll

end Sys2Proof.Machine
end

