-- ==== Sys2Proof/Machine/Status.lean ====
section
/-! DEFINITION. The status family (45_status.md R111). -/

namespace Sys2Proof.Machine

/-- STATUS (R111): the one command that executes while the block is halted (R116); with a reserved bit
set it is ignored while halted and faults otherwise (R114 steps 1 and 3). -/
def execStatus (f : Fields) (s : State) : Out :=
  if (Instr.status f).reservedClear then complete (statusWord s) s
  else if s.fault then ignored s
  else raiseFault .reservedField s

end Sys2Proof.Machine
end

