-- ==== Sys2Proof/Machine/Timers.lean ====
section
/-! DEFINITION. The RelayTimer family (43_timer.md R94 to R102). Every command names one timer by
field A and faults TIMER_ID_RANGE when the pool has no such timer. -/

namespace Sys2Proof.Machine

/-- The checks of a timer command (R114), then `body` on the timer it names. -/
def onTimer (i : Instr) (s : State) (body : Timer → Out) : Out :=
  checked i s <|
    match s.timer? i.fields.a with
    | none => raiseFault .timerIdRange s
    | some t => body t

/-- TCFG (R97): the timer is configured and made Idle; RB is not changed. -/
def execTcfg (f : Fields) (s : State) : Out :=
  onTimer (.tcfg f) s fun _ => complete 0 (s.setTimer f.a ⟨f.b, f.t, 0, false⟩)

/-- TSTART (R98): the timer is (re)started from `now` and its relays turn on. -/
def execTstart (f : Fields) (s : State) : Out :=
  onTimer (.tstart f) s fun t =>
    complete 0 ((s.setTimer f.a { t with startTimestamp := f.t, active := true }).relayUpdate
      t.relayMask relayOn)

/-- An Active timer whose elapsed time is strictly above its timeout (R99). -/
def Timer.expired (t : Timer) (now : Word32) : Bool :=
  t.active && t.timeoutMs < elapsed now t.startTimestamp

/-- A timer made Idle with the relays of its mask turned off (R99, R100). -/
def State.idleTimer (a : Byte) (t : Timer) (s : State) : State :=
  (s.setTimer a { t with active := false }).relayUpdate t.relayMask relayOff

/-- TTICK (R99): an expired timer becomes Idle and its relays turn off; RESULT is `active` after. -/
def execTtick (f : Fields) (s : State) : Out :=
  onTimer (.ttick f) s fun t =>
    if t.expired f.t then complete 0 (s.idleTimer f.a t) else complete (flagResult t.active) s

/-- TSTOP (R100): Idle and relays off, whatever the timer's state. -/
def execTstop (f : Fields) (s : State) : Out :=
  onTimer (.tstop f) s fun t => complete 0 (s.idleTimer f.a t)

/-- The remaining time of TREM (R101): it wraps below 0, and an Idle timer answers the sentinel. -/
def Timer.remaining (t : Timer) (now : Word32) : Word32 :=
  if t.active then t.timeoutMs - elapsed now t.startTimestamp else 0xFFFFFFFF

/-- TREM (R101). -/
def execTrem (f : Fields) (s : State) : Out :=
  onTimer (.trem f) s fun t => complete (t.remaining f.t) s

/-- TACTIVE (R102). -/
def execTactive (f : Fields) (s : State) : Out :=
  onTimer (.tactive f) s fun t => complete (flagResult t.active) s

end Sys2Proof.Machine
end

