-- ==== Sys2Proof/Machine/Dispatch.lean ====
section
/-! DEFINITION. The meaning of every command: one arm per constructor of Instr, each one call of the
meaning in the command's family file. -/

namespace Sys2Proof.Machine

/-- The meaning of each command (30_encoding.md R64). -/
def exec (i : Instr) (s : State) : Host.Outcome State Fault Refusal :=
  match i with
  | .digit f => Sys2Proof.Machine.execDigit f s
  | .number f => Sys2Proof.Machine.execNumber f s
  | .message f => Sys2Proof.Machine.execMessage f s
  | .colon f => Sys2Proof.Machine.execColon f s
  | .tcolon f => Sys2Proof.Machine.execTcolon f s
  | .dbread f => Sys2Proof.Machine.execDbread f s
  | .rset f => Sys2Proof.Machine.execRset f s
  | .rsetn f => Sys2Proof.Machine.execRsetn f s
  | .rget f => Sys2Proof.Machine.execRget f s
  | .rison f => Sys2Proof.Machine.execRison f s
  | .rmask f => Sys2Proof.Machine.execRmask f s
  | .renable f => Sys2Proof.Machine.execRenable f s
  | .rdisable f => Sys2Proof.Machine.execRdisable f s
  | .refresh f => Sys2Proof.Machine.execRefresh f s
  | .tcfg f => Sys2Proof.Machine.execTcfg f s
  | .tstart f => Sys2Proof.Machine.execTstart f s
  | .ttick f => Sys2Proof.Machine.execTtick f s
  | .tstop f => Sys2Proof.Machine.execTstop f s
  | .trem f => Sys2Proof.Machine.execTrem f s
  | .tactive f => Sys2Proof.Machine.execTactive f s
  | .fsample f => Sys2Proof.Machine.execFsample f s
  | .ftick f => Sys2Proof.Machine.execFtick f s
  | .fsetth f => Sys2Proof.Machine.execFsetth f s
  | .fread f => Sys2Proof.Machine.execFread f s
  | .status f => Sys2Proof.Machine.execStatus f s

end Sys2Proof.Machine
end

