-- ==== Sys2Proof/Machine/Port.lean ====
section
/-! DEFINITION. The block's two inputs and its reset (00_scope.md R8; 60_exceptions.md R114, R119,
R120; 70_reset_and_hazards.md R128): what one event does to the machine. -/

namespace Sys2Proof.Machine

/-- Step 2 of the check order (R114), after step 1: a word whose OP is illegal on the command port
faults unless the block is halted (R66, R116). -/
def illegalOnPort (s : State) : Out :=
  if s.fault then ignored s else raiseFault .illegalOpcode s

/-- A command word presented on the command port (R114): FSAMPLE is agent E's alone and is illegal
here (R66). -/
def presentCommand (w : CommandWord) (s : State) : Out :=
  match decode w with
  | .illegalOpcode _ => illegalOnPort s
  | .term i =>
    match i.agent with
    | .E => illegalOnPort s
    | .C => exec i s

/-- A rising edge of FREQ_IN with its time (R104, R119, R120): one FSAMPLE event, its fields well
formed. -/
def presentEdge (nowUs : Word32) (s : State) : Out := exec (.fsample (edgeFields nowUs)) s

/-- One event (R14, R57): it is taken whole. A reset, and the power-up after a power loss, discard the
command being presented (R127, R128). -/
def deliver (e : Input) (s : State) : Out :=
  match e with
  | .command w => presentCommand w s
  | .edge nowUs => presentEdge nowUs s
  | .reset _ => .next s.resetBlock
  | .powerCycle ch _ => .next (State.resetBlock { s with chain := ch })

/-- The next event is taken from those that wait; with none the block waits, unchanged (R127, R128;
log entry 4). -/
def takeEvent (s : State) : Out :=
  match s.inputs with
  | [] => .next s
  | e :: rest => deliver e { s with inputs := rest }

/-- The event that makes the block run the instruction of a word: the edge with the word's time when
OP is FSAMPLE's, since FSAMPLE is legal only as an edge event (R66), else the command. -/
def eventOfWord (w : CommandWord) : Input :=
  if opByte w = 0x50 then .edge (fieldsOf w).t else .command w

end Sys2Proof.Machine
end

