-- ==== Sys2Proof/Machine/Step.lean ====
section
/-! DEFINITION. One step of the machine: the next event of its inputs is taken, whole
(00_scope.md R14, 70_reset_and_hazards.md R130). -/

namespace Sys2Proof.Machine

/-- One step (R14, R57, R130). -/
def step : State → Host.Outcome State Fault Refusal := takeEvent

/-- The state whose very next step runs the instruction in the `nbits` low bits of `w` (the bits above
them 0): the event is put before those that wait. Where the machine gets its program from is log
entry 4. -/
def State.withFetchWord (s : State) (nbits w : Nat) : State :=
  { s with inputs := eventOfWord (BitVec.ofNat 64 (w % 2 ^ nbits)) :: s.inputs }

end Sys2Proof.Machine
end

