-- ==== Sys2Proof/Machine/Assembler.lean ====
section
/-! DEFINITION. The assembler syntax and the pseudo-instructions (30_encoding.md R71, R72): one line
of text to one event of a program. Text is a list of characters. What the spec's forms do not
settle (letter case, blanks, a number too wide for its field) is log entry 14. -/

namespace Sys2Proof.Machine

/-- The pseudo-instructions (R72). -/
inductive Pseudo where
  | display (value : Word32)
  | char (pos sym : Byte)
  | ron (num : Byte)
  | roff (num : Byte)
  | rallon
  | ralloff
  | colonOn
  | colonOff
deriving DecidableEq, Repr

/-- The expansion of each pseudo-instruction (R72). -/
def Pseudo.expand : Pseudo → Instr
  | .display value => .number ⟨4, 0, 0, value⟩
  | .char pos sym => .digit ⟨pos, sym, 0, 0⟩
  | .ron num => .rsetn ⟨num, 1, 0, 0⟩
  | .roff num => .rsetn ⟨num, 0, 0, 0⟩
  | .rallon => .rset ⟨0xFF, 0xFF, 0, 0⟩
  | .ralloff => .rset ⟨0xFF, 0x00, 0, 0⟩
  | .colonOn => .colon ⟨1, 0, 0, 0⟩
  | .colonOff => .colon ⟨0, 0, 0, 0⟩

/-- An operand as it is written (R71): a number, a time `@t`, a quoted symbol, or a name. -/
inductive AsmOperand where
  | num (n : Nat)
  | time (n : Nat)
  | quoted (c : Char)
  | name (cs : List Char)
deriving DecidableEq, Repr

/-- The apostrophe of a quoted symbol. -/
def apostrophe : Char := Char.ofNat 39

/-- The value of a digit in the given base, 10 or 16. -/
def digitValue (base : Nat) (c : Char) : Option Nat :=
  let n := c.toNat
  if 48 ≤ n ∧ n ≤ 57 then some (n - 48)
  else if base = 16 ∧ 65 ≤ n ∧ n ≤ 70 then some (n - 55)
  else if base = 16 ∧ 97 ≤ n ∧ n ≤ 102 then some (n - 87)
  else none

/-- A number written in the given base, after the digits read so far. -/
def numberFrom (base : Nat) : Nat → List Char → Option Nat
  | acc, [] => some acc
  | acc, c :: cs =>
    match digitValue base c with
    | none => none
    | some d => numberFrom base (acc * base + d) cs

/-- A decimal or `0x` hexadecimal number (R71). -/
def parseNumber : List Char → Option Nat
  | [] => none
  | ['0', 'x'] => none
  | '0' :: 'x' :: cs => numberFrom 16 0 cs
  | cs => numberFrom 10 0 cs

/-- One operand (R71). -/
def parseOperand (cs : List Char) : Option AsmOperand :=
  match cs with
  | [] => none
  | '@' :: rest => (parseNumber rest).map .time
  | c :: rest =>
    if c = apostrophe then
      match rest with
      | [x, close] => if close = apostrophe then some (.quoted x) else none
      | _ => none
    else if (digitValue 10 c).isSome then (parseNumber cs).map .num
    else some (.name cs)

/-- A blank between words. -/
def isBlank (c : Char) : Bool := c = ' ' || c = Char.ofNat 9

/-- A text without the blanks around it. -/
def trimBlanks (cs : List Char) : List Char :=
  ((cs.dropWhile isBlank).reverse.dropWhile isBlank).reverse

/-- The pieces of a text between its commas. -/
def splitCommas : List Char → List (List Char)
  | [] => [[]]
  | c :: cs =>
    if c = ',' then [] :: splitCommas cs
    else
      match splitCommas cs with
      | [] => [[c]]
      | piece :: pieces => (c :: piece) :: pieces

/-- Every element read, or none. -/
def readAll (read : List Char → Option AsmOperand) : List (List Char) → Option (List AsmOperand)
  | [] => some []
  | x :: xs =>
    match read x, readAll read xs with
    | some y, some ys => some (y :: ys)
    | _, _ => none

/-- A number of an 8-bit field. -/
def AsmOperand.byte : AsmOperand → Option Byte
  | .num n => if n < 256 then some (BitVec.ofNat 8 n) else none
  | .time _ | .quoted _ | .name _ => none

/-- A number of the 32-bit field. -/
def AsmOperand.wide : AsmOperand → Option Word32
  | .num n => if n < 2 ^ 32 then some (BitVec.ofNat 32 n) else none
  | .time _ | .quoted _ | .name _ => none

/-- A time operand `@t` (R71). -/
def AsmOperand.now : AsmOperand → Option Word32
  | .time n => if n < 2 ^ 32 then some (BitVec.ofNat 32 n) else none
  | .num _ | .quoted _ | .name _ => none

/-- A name of a table, or a number. -/
def AsmOperand.named (names : List (List Char × Byte)) : AsmOperand → Option Byte
  | .num n => AsmOperand.byte (.num n)
  | .name cs => names.lookup cs
  | .time _ | .quoted _ => none

/-- The quoted symbols and their codes (R21, R71). -/
def quotedSymbols : List (Char × Byte) :=
  [('0', 0), ('1', 1), ('2', 2), ('3', 3), ('4', 4), ('5', 5), ('6', 6), ('7', 7), ('8', 8),
   ('9', 9), ('O', 11), ('n', 12), ('F', 13), ('E', 14), ('r', 15), ('_', 16)]

/-- A symbol operand (R71): a code, a quoted symbol, or BLANK. -/
def AsmOperand.symbol : AsmOperand → Option Byte
  | .num n => AsmOperand.byte (.num n)
  | .quoted c => quotedSymbols.lookup c
  | .name cs => if cs = ['B', 'L', 'A', 'N', 'K'] then some 10 else none
  | .time _ => none

/-- A message id (R71). -/
def AsmOperand.message : AsmOperand → Option Byte :=
  AsmOperand.named [(['B', 'L', 'A', 'N', 'K'], 0), (['O', 'N'], 1), (['O', 'F', 'F'], 2),
    (['E', 'R', 'R'], 3)]

/-- The threshold selectors (R71). -/
def thresholdNames : List (List Char × Byte) :=
  [(['L', 'O', 'W', 'E', 'R'], 0), (['U', 'P', 'P', 'E', 'R'], 1),
   (['S', 'T', 'O', 'P', 'P', 'E', 'D'], 2)]

/-- The read selectors (R71). -/
def readNames : List (List Char × Byte) :=
  thresholdNames ++ [(['S', 'P'], 3), (['A', 'C', 'C'], 4), (['L', 'A', 'S', 'T'], 5),
    (['S', 'T', 'A', 'T', 'E'], 6)]

/-- A command of agent C. -/
def asmCommand (i : Instr) : Option Input := some (.command (encode i))

/-- A command without operands. -/
def asmPlain (mk : Fields → Instr) : List AsmOperand → Option Input
  | [] => asmCommand (mk ⟨0, 0, 0, 0⟩)
  | _ => none

/-- A command whose one operand is field A. -/
def asmA (readA : AsmOperand → Option Byte) (mk : Fields → Instr) : List AsmOperand → Option Input
  | [x] => (readA x).bind fun a => asmCommand (mk ⟨a, 0, 0, 0⟩)
  | _ => none

/-- A command whose operands are fields A and B. -/
def asmAB (readB : AsmOperand → Option Byte) (mk : Fields → Instr) : List AsmOperand → Option Input
  | [x, y] => x.byte.bind fun a => (readB y).bind fun b => asmCommand (mk ⟨a, b, 0, 0⟩)
  | _ => none

/-- A command whose operands are fields A and T. -/
def asmAT (readA : AsmOperand → Option Byte) (readT : AsmOperand → Option Word32)
    (mk : Fields → Instr) : List AsmOperand → Option Input
  | [x, y] => (readA x).bind fun a => (readT y).bind fun t => asmCommand (mk ⟨a, 0, 0, t⟩)
  | _ => none

/-- A pseudo-instruction's line (R72). -/
def asmPseudo (p : Pseudo) : Option Input := asmCommand p.expand

/-- `NUMBER value [, digits]`: digits = 4 when not written (R71). -/
def asmNumber : List AsmOperand → Option Input
  | [v] => v.wide.bind fun t => asmCommand (.number ⟨4, 0, 0, t⟩)
  | [v, d] => v.wide.bind fun t => d.byte.bind fun a => asmCommand (.number ⟨a, 0, 0, t⟩)
  | _ => none

/-- `COLON 0|1`, `COLON ON`, `COLON OFF` (R71, R72). -/
def asmColon : List AsmOperand → Option Input
  | [.name ['O', 'N']] => asmPseudo .colonOn
  | [.name ['O', 'F', 'F']] => asmPseudo .colonOff
  | ops => asmA AsmOperand.byte .colon ops

/-- `TCFG id, mask, timeoutMs` (R71). -/
def asmTcfg : List AsmOperand → Option Input
  | [x, y, z] =>
    x.byte.bind fun a => y.byte.bind fun b => z.wide.bind fun t => asmCommand (.tcfg ⟨a, b, 0, t⟩)
  | _ => none

/-- `FTICK @now_us` (R71). -/
def asmFtick : List AsmOperand → Option Input
  | [x] => x.now.bind fun t => asmCommand (.ftick ⟨0, 0, 0, t⟩)
  | _ => none

/-- `FSAMPLE @now_us`: an edge event of agent E (R71). -/
def asmFsample : List AsmOperand → Option Input
  | [x] => x.now.map .edge
  | _ => none

/-- `DISPLAY value` (R72). -/
def asmDisplay : List AsmOperand → Option Input
  | [v] => v.wide.bind fun t => asmPseudo (.display t)
  | _ => none

/-- `CHAR pos, sym` (R72). -/
def asmChar : List AsmOperand → Option Input
  | [x, y] => x.byte.bind fun a => y.symbol.bind fun b => asmPseudo (.char a b)
  | _ => none

/-- `RON num` and `ROFF num` (R72). -/
def asmRelay (mk : Byte → Pseudo) : List AsmOperand → Option Input
  | [x] => x.byte.bind fun n => asmPseudo (mk n)
  | _ => none

/-- `RALLON` and `RALLOFF` (R72). -/
def asmAllRelays (p : Pseudo) : List AsmOperand → Option Input
  | [] => asmPseudo p
  | _ => none

/-- The forms of R71 and R72 by mnemonic: display and relay commands. -/
def asmFormsDisplayRelay : List (List Char × (List AsmOperand → Option Input)) :=
  [(['D', 'I', 'G', 'I', 'T'], asmAB AsmOperand.symbol .digit),
   (['N', 'U', 'M', 'B', 'E', 'R'], asmNumber),
   (['M', 'E', 'S', 'S', 'A', 'G', 'E'], asmA AsmOperand.message .message),
   (['C', 'O', 'L', 'O', 'N'], asmColon),
   (['T', 'C', 'O', 'L', 'O', 'N'], asmPlain .tcolon),
   (['D', 'B', 'R', 'E', 'A', 'D'], asmA AsmOperand.byte .dbread),
   (['R', 'S', 'E', 'T'], asmAB AsmOperand.byte .rset),
   (['R', 'S', 'E', 'T', 'N'], asmAB AsmOperand.byte .rsetn),
   (['R', 'G', 'E', 'T'], asmA AsmOperand.byte .rget),
   (['R', 'I', 'S', 'O', 'N'], asmA AsmOperand.byte .rison),
   (['R', 'M', 'A', 'S', 'K'], asmA AsmOperand.byte .rmask),
   (['R', 'E', 'N', 'A', 'B', 'L', 'E'], asmPlain .renable),
   (['R', 'D', 'I', 'S', 'A', 'B', 'L', 'E'], asmPlain .rdisable)]

/-- The forms of R71 by mnemonic: the other families. -/
def asmFormsTimerFreq : List (List Char × (List AsmOperand → Option Input)) :=
  [(['R', 'E', 'F', 'R', 'E', 'S', 'H'], asmPlain .refresh),
   (['T', 'C', 'F', 'G'], asmTcfg),
   (['T', 'S', 'T', 'A', 'R', 'T'], asmAT AsmOperand.byte AsmOperand.now .tstart),
   (['T', 'T', 'I', 'C', 'K'], asmAT AsmOperand.byte AsmOperand.now .ttick),
   (['T', 'S', 'T', 'O', 'P'], asmA AsmOperand.byte .tstop),
   (['T', 'R', 'E', 'M'], asmAT AsmOperand.byte AsmOperand.now .trem),
   (['T', 'A', 'C', 'T', 'I', 'V', 'E'], asmA AsmOperand.byte .tactive),
   (['F', 'S', 'A', 'M', 'P', 'L', 'E'], asmFsample),
   (['F', 'T', 'I', 'C', 'K'], asmFtick),
   (['F', 'S', 'E', 'T', 'T', 'H'],
     asmAT (AsmOperand.named thresholdNames) AsmOperand.wide .fsetth),
   (['F', 'R', 'E', 'A', 'D'], asmA (AsmOperand.named readNames) .fread),
   (['S', 'T', 'A', 'T', 'U', 'S'], asmPlain .status)]

/-- The pseudo-instructions by mnemonic (R72); `COLON ON` and `COLON OFF` are forms of COLON. -/
def asmFormsPseudo : List (List Char × (List AsmOperand → Option Input)) :=
  [(['D', 'I', 'S', 'P', 'L', 'A', 'Y'], asmDisplay),
   (['C', 'H', 'A', 'R'], asmChar),
   (['R', 'O', 'N'], asmRelay .ron),
   (['R', 'O', 'F', 'F'], asmRelay .roff),
   (['R', 'A', 'L', 'L', 'O', 'N'], asmAllRelays .rallon),
   (['R', 'A', 'L', 'L', 'O', 'F', 'F'], asmAllRelays .ralloff)]

/-- What a line of a program stands for. -/
inductive AsmLine where
  | event (e : Input)
  | empty
  | malformed
deriving DecidableEq, Repr

/-- One line (R71): the mnemonic, its operands separated by commas, and a comment after `;`. -/
def assembleLine (line : List Char) : AsmLine :=
  let text := trimBlanks (line.takeWhile (· != ';'))
  let mnemonic := text.takeWhile (fun c => !isBlank c)
  let rest := trimBlanks (text.dropWhile (fun c => !isBlank c))
  if text = [] then .empty
  else
    match (asmFormsDisplayRelay ++ asmFormsTimerFreq ++ asmFormsPseudo).lookup mnemonic,
      (if rest = [] then some [] else readAll parseOperand ((splitCommas rest).map trimBlanks)) with
    | some form, some ops =>
      match form ops with
      | some e => .event e
      | none => .malformed
    | _, _ => .malformed

/-- A program (R71, R130): the events of its lines in order, or none when a line is malformed. -/
def assembleProgram : List (List Char) → Option (List Input)
  | [] => some []
  | line :: lines =>
    match assembleLine line, assembleProgram lines with
    | .event e, some es => some (e :: es)
    | .empty, some es => some es
    | _, _ => none

end Sys2Proof.Machine
end

