-- ==== Sys2Proof/Machine/Outputs.lean ====
section
/-! DEFINITION. What the outside sees: the relays behind the output-enable gate, the display, and the
edges on the pins (10_state.md R39 to R41). -/

namespace Sys2Proof.Machine

/-- Relay n (1..8) is energized: its bit of OUT_RELAY is 1 and OE_N is 0 (R41; the bit of relay n is
the one of `relay_mask`, R81). -/
def State.relayEnergized (s : State) (n : Byte) : Bool :=
  s.chain.outRelay &&& relayMask n != 0 && !s.oeN

/-- The display word latched last, `{OUT_HI, OUT_LO}` (R41). -/
def State.shownWord (s : State) : DisplayWord := s.chain.outHi ++ s.chain.outLo

/-- Digit position p is enabled (R41). -/
def State.digitEnabled (s : State) (p : Fin 4) : Bool :=
  s.shownWord.getLsbD (s.cfg.selBit.get p).val

/-- Segment `seg` is lit on an enabled digit p (R41): its bit is 0. -/
def State.segmentLit (s : State) (p : Fin 4) (seg : Segment) : Bool :=
  s.digitEnabled p && !s.shownWord.getLsbD (s.cfg.segBit.bit seg).val

/-- The rising edges of CLK in a list of pin writes, from a level of CLK (R88, R90). -/
def clkRises (level : Bool) : List PinWrite → Nat
  | [] => 0
  | .clk b :: ws => (if !level && b then 1 else 0) + clkRises b ws
  | .data _ :: ws | .latch _ :: ws | .oeN _ :: ws => clkRises level ws

/-- The rising edges of LATCH in a list of pin writes, from a level of LATCH (R88, R90). -/
def latchRises (level : Bool) : List PinWrite → Nat
  | [] => 0
  | .latch b :: ws => (if !level && b then 1 else 0) + latchRises b ws
  | .data _ :: ws | .clk _ :: ws | .oeN _ :: ws => latchRises level ws

/-- The bits on DATA at the rising edges of CLK, in time order, from the levels of DATA and CLK (R49,
R88). -/
def sentBits (data clk : Bool) : List PinWrite → List Bool
  | [] => []
  | .data b :: ws => sentBits b clk ws
  | .clk b :: ws => (if !clk && b then [data] else []) ++ sentBits data b ws
  | .latch _ :: ws | .oeN _ :: ws => sentBits data clk ws

end Sys2Proof.Machine
end

