-- ==== Sys2Proof/Machine/Run.lean ====
section
/-! DEFINITION. Programs and the end of a run (70_reset_and_hazards.md R130): the events of a program are
put at the inputs and taken one a step, and the run answers the state it ends in and RESULT after each
command. -/

namespace Sys2Proof.Machine

/-- The state a step answers; a step of this machine always answers one (R115: a fault is a next
state), and the state itself stands in for the outcomes that never come. -/
def stepTo (s : State) : State :=
  match step s with
  | .next t => t
  | .fault _ => s
  | .refused _ => s

/-- The state after `n` steps. -/
def stepsTo : Nat → State → State
  | 0, s => s
  | n + 1, s => stepsTo n (stepTo s)

/-- The state at the end of a run of the events `es` from `s` (R130): they are put at the inputs and taken
one at a time, until the list is exhausted. -/
def runEvents (es : List Input) (s : State) : State :=
  stepsTo es.length { s with inputs := es }

/-- An event of a program: a command word or an edge (R130). Resets and power cycles are not. -/
def Input.ofProgram : Input → Bool
  | .command _ | .edge _ => true
  | .reset _ | .powerCycle _ _ => false

/-- An event of the command port: every one of these writes RESULT (R63). -/
def Input.isCommand : Input → Bool
  | .command _ => true
  | .edge _ | .reset _ | .powerCycle _ _ => false

/-- RESULT after each command of a run of the events `es` from `s`, in the order of the commands (R63,
R130): one value for every command word presented, those that fault or are ignored too (log entry 22). -/
def resultsAlong : List Input → State → List Word32
  | [], _ => []
  | e :: es, s =>
    let t := stepTo { s with inputs := e :: es }
    if e.isCommand then t.result :: resultsAlong es t else resultsAlong es t

/-- What a run ends with (R130): `state` holds the block's registers, the pin trace and the external
chain, `results` RESULT after each command. -/
structure RunEnd where
  state : State
  results : List Word32
deriving DecidableEq, Repr

/-- The end of a run of the events `es` from `s` (R130). -/
def runFrom (es : List Input) (s : State) : RunEnd where
  state := runEvents es s
  results := resultsAlong es s

/-- The end of a run of a program (R130): from the reset state of an instance, with the external chain at
any value. -/
def runProgram (p : Params) (ch : Chain) (es : List Input) : RunEnd :=
  runFrom es (State.powerUp p ch)

/-- A run whose FAULT is 1 at its end has faulted (R116, R130). -/
def State.faulted (s : State) : Bool := s.fault

/-- The run has faulted: its end state is not a result that the program computes (R130). -/
def RunEnd.faulted (r : RunEnd) : Bool := r.state.faulted

end Sys2Proof.Machine
end

