-- ==== Sys2Proof/WellFormed.lean ====
section
/-! DEFINITION. The well-formed commands: every reserved bit 0 (30_encoding.md R67) and every operand
in the legal range of the opcode map (R62, R64), as far as the word alone decides. Whether a timer
id is below N_TIMERS and whether the thresholds are ordered depends on the machine, not on the
word. An ill-formed command is still a command of the machine: it faults (60_exceptions.md R114). -/

namespace Sys2Proof

/-- The operands of a command lie in the legal ranges of R64. -/
def Instr.operandsLegal : Instr → Bool
  | .digit f => f.a.toNat < 4 && f.b.toNat < 17
  | .number f => 1 ≤ f.a.toNat && f.a.toNat ≤ 4
  | .message f => f.a.toNat < 4
  | .dbread f => f.a.toNat < 4
  | .fsetth f => f.a.toNat < 3
  | .fread f => f.a.toNat < 7
  | .colon _ | .tcolon _
  | .rset _ | .rsetn _ | .rget _ | .rison _ | .rmask _ | .renable _ | .rdisable _
  | .refresh _
  | .tcfg _ | .tstart _ | .ttick _ | .tstop _ | .trem _ | .tactive _
  | .fsample _ | .ftick _ | .status _ => true

/-- A well-formed command (R64, R67). -/
def Instr.wellFormed (i : Instr) : Bool := i.reservedClear && i.operandsLegal

end Sys2Proof
end

