-- ==== Sys2Proof/Safety.lean ====
section
/-! DEFINITION. The terms in which claims speak of a run (Machine/Run.lean): the invariant of the
machine's states, the fault table of 60_exceptions.md R113 read as a table, the display and register groups, and the boot order that R129 asks of a host. -/

namespace Sys2Proof.Machine

/-- What every state reached from a reset of a legal instance satisfies: the parameters are legal
(R19); the pool has N_TIMERS timers (R31); each display word has its own select bit and no other
(R20) and no unused bit (R22); the smoothed period is the accumulator shifted (R104); CLK idles low
and LATCH high between events (R88); CAUSE is NONE without a fault and one of 1..9 with one (R113). -/
structure State.Inv (s : State) : Prop where
  legal : s.cfg.Legal
  pool : s.timers.length = s.cfg.nTimers
  select : ∀ p : Fin 4, s.db.get p &&& s.cfg.selMaskAll = s.cfg.dst p
  unused : ∀ p : Fin 4, s.db.get p &&& s.cfg.unusedMask = 0
  smoothed : s.fSp = s.fAcc >>> s.cfg.smoothShift.val
  clkIdle : s.pins.clk = false
  latchIdle : s.pins.latch = true
  causeNone : s.fault = false → s.cause = 0
  causeNamed : s.fault = true → 1 ≤ s.cause.toNat ∧ s.cause.toNat ≤ 9

/-- The first cause of R113 that a command on a machine that is not halted meets, in the order of
R114: reserved bits, range of A, range of B, state. Written from the table of R113 row by row, apart
from the meanings. Edges raise none. -/
def firstFault (i : Instr) (s : State) : Option FaultCause :=
  match i with
  | .fsample _ => none
  | i =>
    if i.fields.a &&& i.reservedMask.a ≠ 0 ∨ i.fields.b &&& i.reservedMask.b ≠ 0 ∨
       i.fields.c &&& i.reservedMask.c ≠ 0 ∨ i.fields.t &&& i.reservedMask.t ≠ 0 then
      some .reservedField
    else
      match i with
      | .digit f =>
        if 4 ≤ f.a.toNat then some .positionRange
        else if 17 ≤ f.b.toNat then some .symbolRange
        else none
      | .dbread f => if 4 ≤ f.a.toNat then some .positionRange else none
      | .number f => if f.a.toNat = 0 ∨ 4 < f.a.toNat then some .digitsRange else none
      | .message f => if 4 ≤ f.a.toNat then some .messageRange else none
      | .tcfg f | .tstart f | .ttick f | .tstop f | .trem f | .tactive f =>
        if s.nTimers ≤ f.a.toNat then some .timerIdRange else none
      | .fsetth f => if 3 ≤ f.a.toNat then some .selectorRange else none
      | .fread f => if 7 ≤ f.a.toNat then some .selectorRange else none
      | .ftick _ =>
        if s.thLower < s.thUpper ∧ s.thUpper < s.thStopped then none else some .thresholdOrder
      | .colon _ | .tcolon _ | .rset _ | .rsetn _ | .rget _ | .rison _ | .rmask _
      | .renable _ | .rdisable _ | .refresh _ | .fsample _ | .status _ => none

/-- The `reserved_zero_mask` of every command's row of spec/opcode_table.json, by opcode (R67). -/
def reservedZeroMasks : List (Byte × CommandWord) :=
  [(0x10, 0x000000FFFFFFFFFF),
   (0x11, 0x0000FFFFFFFF0000),
   (0x12, 0x0000FFFFFFFFFFFF),
   (0x13, 0x00FEFFFFFFFFFFFF),
   (0x14, 0x00FFFFFFFFFFFFFF),
   (0x15, 0x0000FFFFFFFFFFFF),
   (0x20, 0x000000FFFFFFFFFF),
   (0x21, 0x0000FEFFFFFFFFFF),
   (0x22, 0x0000FFFFFFFFFFFF),
   (0x23, 0x0000FFFFFFFFFFFF),
   (0x24, 0x0000FFFFFFFFFFFF),
   (0x25, 0x00FFFFFFFFFFFFFF),
   (0x26, 0x00FFFFFFFFFFFFFF),
   (0x30, 0x00FFFFFFFFFFFFFF),
   (0x40, 0x000000FF00000000),
   (0x41, 0x0000FFFF00000000),
   (0x42, 0x0000FFFF00000000),
   (0x43, 0x0000FFFFFFFFFFFF),
   (0x44, 0x0000FFFF00000000),
   (0x45, 0x0000FFFFFFFFFFFF),
   (0x51, 0x00FFFFFF00000000),
   (0x52, 0x0000FFFF00000000),
   (0x53, 0x0000FFFFFFFFFFFF),
   (0x60, 0x00FFFFFFFFFFFFFF)]

/-- What a colon command leaves in DB (R77): positions 1 and 2 have the colon bit cleared or set and their
select bit asserted, positions 0 and 3 are untouched. -/
def colonWritten (s t : State) (en : Bool) : Prop :=
  t.db.get 0 = s.db.get 0 ∧ t.db.get 3 = s.db.get 3 ∧
  ∀ p : Fin 4, p = 1 ∨ p = 2 → t.db.get p =
    if en then (s.db.get p &&& ~~~s.cfg.dpMask) ||| s.cfg.dst p
    else s.db.get p ||| s.cfg.dpMask ||| s.cfg.dst p

/-- The word of an event is an executed form of REFRESH (R90). -/
def Input.isRefresh (e : Input) : Bool := e == .command (encode (.refresh ⟨0, 0, 0, 0⟩))

/-- The word of an event has the opcode of RENABLE (R86). -/
def Input.isRenable : Input → Bool
  | .command w => opByte w == 0x25
  | .edge _ | .reset _ | .powerCycle _ _ => false

/-- The boot order of R129 steps 3 and 4 and the hazard of R131: no RENABLE stands before the first
REFRESH. -/
def enablesAfterRefresh : List Input → Bool
  | [] => true
  | e :: es => e.isRefresh || (!e.isRenable && enablesAfterRefresh es)

/-- Edges of the frequency input at a constant interval `period` after the last one, `n` of them
(44_freq.md R105). -/
def sampleEvery (period : Word32) : Nat → State → State
  | 0, s => s
  | n + 1, s => sampleEvery period n (s.sample (s.fLast + period))

end Sys2Proof.Machine
end

