-- ==== Sys2Proof/Certificates/Slice0/Obligations.lean ====
section
/-! DEFINITION. The statements about the machine, for the provers. Rule numbers R<n> are those of spec/.
`exec i s = .next { s with … }` says the new values and, by what it does not list, that every other
field of the state is unchanged: registers, flags, pins, chain, waiting events, parameters. The
block has no addressed memory (20_memory.md R47), so no statement speaks of memory. -/

open Sys2Proof Sys2Proof.Machine

/-! ## Decoding, the port, and a step -/

/-- Decoding and encoding are inverse of each other on the assigned opcodes, every field at every value;
a word is refused exactly when its OP is no row's (30_encoding.md R61, R64, R70). -/
def Obligations.DecodeAndEncodeAgree : Prop :=
  (∀ i : Instr, decode (encode i) = .term i) ∧
  (∀ (w : CommandWord) (i : Instr), decode w = .term i → encode i = w) ∧
  (∀ (w : CommandWord) (op : Byte),
    decode w = .illegalOpcode op ↔ op = opByte w ∧ ∀ i : Instr, i.opcode ≠ opByte w)

/-- R70: on every word the decoder answers the row of its OP with the word's fields, reserved and
out-of-range ones too, or the verdict ILLEGAL_OPCODE. -/
def Obligations.DecoderIsTotalAndKeepsFields : Prop :=
  ∀ w : CommandWord,
    (∀ i : Instr, i.opcode = opByte w → i.fields = fieldsOf w → decode w = .term i) ∧
    ((∃ i : Instr, decode w = .term i ∧ i.opcode = opByte w ∧ i.fields = fieldsOf w) ∨
      decode w = .illegalOpcode (opByte w))

/-- A sanity check of the decoder on words of the spec's programs, and on a word of an illegal opcode
(95_test_vectors.md sections 3 and 2). -/
def Obligations.WordsOfTheSpecDecode : Prop :=
  decode 0x11040000000004D2 = .term (.number ⟨4, 0, 0, 1234⟩) ∧
  decode 0x2103010000000000 = .term (.rsetn ⟨3, 1, 0, 0⟩) ∧
  decode 0x3000000000000000 = .term (.refresh ⟨0, 0, 0, 0⟩) ∧
  decode 0x40000A0000001388 = .term (.tcfg ⟨0, 0x0A, 0, 5000⟩) ∧
  decode 0x510000000000FA64 = .term (.ftick ⟨0, 0, 0, 64100⟩) ∧
  decode 0x6000000000000000 = .term (.status ⟨0, 0, 0, 0⟩) ∧
  decode 0x1600000000000000 = .illegalOpcode 0x16

/-- A step takes the first waiting event whole: a command word that decodes to a command of agent C
runs that command, an edge runs FSAMPLE with its time; with no event the machine waits unchanged (the
model's reading of R127 and R128, log entry 4). -/
def Obligations.StepRunsTheDecodedCommand : Prop :=
  (∀ (s : State) (rest : List Input) (w : CommandWord) (i : Instr),
    s.inputs = .command w :: rest → decode w = .term i → i.agent = .C →
    step s = exec i { s with inputs := rest }) ∧
  (∀ (s : State) (rest : List Input) (now : Word32),
    s.inputs = .edge now :: rest →
    step s = exec (.fsample ⟨0, 0, 0, now⟩) { s with inputs := rest }) ∧
  (∀ s : State, s.inputs = [] → step s = .next s)

/-- R66: every OP outside the table, and FSAMPLE's OP, faults ILLEGAL_OPCODE on the command port of a
block that is not halted, whatever the other bits; the all-zero word is among them. An FSAMPLE is
legal as an edge event. -/
def Obligations.IllegalOpcodesFault : Prop :=
  (∀ (s : State) (rest : List Input) (w : CommandWord),
    s.inputs = .command w :: rest → s.fault = false →
    ((opByte w).toNat ≤ 0x0F ∨ (0x16 ≤ (opByte w).toNat ∧ (opByte w).toNat ≤ 0x1F) ∨
      (0x27 ≤ (opByte w).toNat ∧ (opByte w).toNat ≤ 0x2F) ∨
      (0x31 ≤ (opByte w).toNat ∧ (opByte w).toNat ≤ 0x3F) ∨
      (0x46 ≤ (opByte w).toNat ∧ (opByte w).toNat ≤ 0x50) ∨
      (0x54 ≤ (opByte w).toNat ∧ (opByte w).toNat ≤ 0x5F) ∨ 0x61 ≤ (opByte w).toNat) →
    step s = .next { s with inputs := rest, fault := true, cause := 1, result := 0 }) ∧
  (∀ (s : State) (rest : List Input) (now : Word32),
    s.inputs = .edge now :: rest → s.fault = false → ∃ t, step s = .next t ∧ t.fault = false)

/-! ## Faults -/

/-- R114, the check order of a command word: halted, illegal opcode, then the first cause of
`firstFault` (reserved bits, range of A, range of B, state), and otherwise the command's rule. -/
def Obligations.CommandCheckOrder : Prop :=
  ∀ (s : State) (rest : List Input) (w : CommandWord), s.inputs = .command w :: rest →
    (s.fault = true → w ≠ encode (.status ⟨0, 0, 0, 0⟩) →
      step s = .next { s with inputs := rest, result := 0 }) ∧
    (s.fault = false →
      ((∀ i : Instr, i.agent = .C → i.opcode ≠ opByte w) →
        step s = .next { s with inputs := rest, fault := true, cause := 1, result := 0 }) ∧
      (∀ i : Instr, decode w = .term i → i.agent = .C →
        (∀ c, firstFault i s = some c →
          step s = .next { s with inputs := rest, fault := true, cause := c.code, result := 0 }) ∧
        (firstFault i s = none →
          ∃ t, step s = .next t ∧ exec i { s with inputs := rest } = .next t ∧
            t.fault = false ∧ t.cause = s.cause)))

/-- R67: in every command a 1 in a reserved bit faults RESERVED_FIELD; the reserved bits are the
`reserved_zero_mask` of the opcode table, row by row, on the whole word. A NUMBER above 0xFFFF is one case. -/
def Obligations.ReservedBitsFault : Prop :=
  (∀ (s : State) (rest : List Input) (w : CommandWord) (row : Byte × CommandWord),
    s.inputs = .command w :: rest → s.fault = false →
    row ∈ reservedZeroMasks → opByte w = row.1 → w &&& row.2 ≠ 0 →
    step s = .next { s with inputs := rest, fault := true, cause := 2, result := 0 }) ∧
  (∀ (s : State) (f : Fields), s.fault = false → 0xFFFF < f.t.toNat →
    exec (.number f) s = .next { s with fault := true, cause := 2, result := 0 })

/-- R113, the table of causes read both ways: which command raises which code, on which condition, and that
no other code is raised. Code 1 is raised on the command port; an edge raises none. That a fault saves its
code only is Obligations.FaultsArePrecise. -/
def Obligations.FaultCausesOfTheTable : Prop :=
  (∀ (s t : State) (rest : List Input) (w : CommandWord),
    s.inputs = .command w :: rest → s.fault = false → s.cause = 0 → step s = .next t →
    (t.cause = 1 ↔ ∀ i : Instr, i.agent = .C → i.opcode ≠ opByte w)) ∧
  (∀ (s t : State) (rest : List Input) (now : Word32),
    s.inputs = .edge now :: rest → step s = .next t → t.fault = s.fault ∧ t.cause = s.cause) ∧
  ∀ (i : Instr) (s t : State), s.fault = false → s.cause = 0 → exec i s = .next t →
    (t.fault = true → t.cause ≠ 0) ∧ (t.fault = false → t.cause = 0) ∧
    t.cause ≠ 1 ∧ t.cause.toNat ≤ 9 ∧
    (t.cause = 2 ↔ i.agent = .C ∧ i.reservedClear = false) ∧
    (i.reservedClear = true →
      (t.cause = 3 ↔ i.opcode.toNat ∈ [0x10, 0x15] ∧ 4 ≤ i.fields.a.toNat) ∧
      (t.cause = 4 ↔ i.opcode.toNat = 0x10 ∧ i.fields.a.toNat < 4 ∧ 17 ≤ i.fields.b.toNat) ∧
      (t.cause = 5 ↔ i.opcode.toNat = 0x11 ∧ (i.fields.a.toNat = 0 ∨ 4 < i.fields.a.toNat)) ∧
      (t.cause = 6 ↔ i.opcode.toNat = 0x12 ∧ 4 ≤ i.fields.a.toNat) ∧
      (t.cause = 7 ↔ i.opcode.toNat ∈ [0x40, 0x41, 0x42, 0x43, 0x44, 0x45] ∧
        s.nTimers ≤ i.fields.a.toNat) ∧
      (t.cause = 8 ↔ i.opcode.toNat = 0x52 ∧ 3 ≤ i.fields.a.toNat ∨
        i.opcode.toNat = 0x53 ∧ 7 ≤ i.fields.a.toNat) ∧
      (t.cause = 9 ↔ i.opcode.toNat = 0x51 ∧
        ¬(s.thLower.toNat < s.thUpper.toNat ∧ s.thUpper.toNat < s.thStopped.toNat)))

/-- R115: a command that faults, by its own checks or by its opcode, writes FAULT, CAUSE and RESULT and has
no other effect: no register it would have written changes, no pin moves, and the later events wait. -/
def Obligations.FaultsArePrecise : Prop :=
  (∀ (i : Instr) (s t : State), s.fault = false → exec i s = .next t → t.fault = true →
    ∃ c : FaultCause, t = { s with fault := true, cause := c.code, result := 0 }) ∧
  (∀ s t : State, s.fault = false → step s = .next t → t.fault = true →
    ∃ c : FaultCause,
      t = { s with inputs := s.inputs.tail, fault := true, cause := c.code, result := 0 })

/-- R116: a halted block ignores every command but a STATUS with reserved fields 0, writing RESULT 0 and
nothing else, and ignores every edge; STATUS reads the status word; a run that ends so has faulted. -/
def Obligations.HaltedBlockIgnoresEvents : Prop :=
  ∀ (s : State) (rest : List Input), s.fault = true →
    s.faulted = true ∧
    (∀ w, s.inputs = .command w :: rest → w ≠ encode (.status ⟨0, 0, 0, 0⟩) →
      step s = .next { s with inputs := rest, result := 0 }) ∧
    (s.inputs = .command (encode (.status ⟨0, 0, 0, 0⟩)) :: rest →
      step s = .next { s with inputs := rest, result := statusWord s }) ∧
    (∀ now, s.inputs = .edge now :: rest → step s = .next { s with inputs := rest })

/-- R117: along every program (commands and edges) a halted block keeps FAULT, the first fault's CAUSE and
every register but RESULT, while a reset clears FAULT and CAUSE. -/
def Obligations.OnlyResetLeavesTheHalt : Prop :=
  (∀ (s : State) (es : List Input), s.fault = true → (∀ e ∈ es, e.ofProgram = true) →
    runEvents es s = { s with inputs := [], result := (runEvents es s).result }) ∧
  (∀ (s : State) (rest : List Input) (presented : Option CommandWord) (ch : Chain),
    s.inputs = .reset presented :: rest ∨ s.inputs = .powerCycle ch presented :: rest →
    ∃ t, step s = .next t ∧ t.fault = false ∧ t.cause = 0)

/-- Every step of the machine answers a next state: the spec's faults are states the block goes on from
(R115, R116), and every command of every form has an effect. -/
def Obligations.NoStepStops : Prop :=
  (∀ s : State, ∃ t, step s = .next t) ∧ (∀ (i : Instr) (s : State), ∃ t, exec i s = .next t)

/-! ## Reset and runs -/

/-- R46: the value of every register after reset, for every parameter set and every content of the
external chain. Of the model's own fields `trace` and `inputs` it says nothing. -/
def Obligations.ResetValues : Prop :=
  ∀ (p : Params) (ch : Chain),
    (∀ q : Fin 4, (State.powerUp p ch).db.get q = p.ct 10 ||| p.dst q) ∧
    (State.powerUp p ch).timers.length = p.nTimers ∧
    (∀ (n : Nat) (init : TimerInit), p.timerInit[n]? = some init →
      (State.powerUp p ch).timers[n]? = some ⟨init.relayMask, init.timeoutMs, 0, false⟩) ∧
    State.powerUp p ch =
      { db := (State.powerUp p ch).db, colon := false, rb := 0x00, oe := true
        timers := (State.powerUp p ch).timers
        fLast := 0, fAcc := 0, fSp := 0, fState := .stopped
        thLower := p.thLowerInit, thUpper := p.thUpperInit, thStopped := p.thStoppedInit
        fault := false, cause := 0, result := 0
        pins := ⟨false, false, true⟩, chain := ch, cfg := p
        trace := (State.powerUp p ch).trace, inputs := (State.powerUp p ch).inputs } ∧
    (State.powerUp p ch).oeN = true

/-- R128: a reset event sets every register to its reset value, discards the command being presented,
keeps the external chain, and the next events are then taken. That the trace goes on with the four
reset levels is the model's (log entry 8). -/
def Obligations.ResetEventRestoresRegisters : Prop :=
  ∀ (s : State) (rest : List Input) (presented : Option CommandWord),
    s.inputs = .reset presented :: rest →
    step s = .next
      { State.powerUp s.cfg s.chain with
        inputs := rest
        trace := s.trace ++ [.data false, .clk false, .latch true, .oeN true] }

/-- After a power cycle every register holds its reset value and the chain any contents (R127, R128; the event
names them, log entry 7), the presented command is lost, and nothing of the former registers remains: two
machines of one instance that share the trace end alike. That the trace goes on with the four reset levels is
the model's (log entry 8). -/
def Obligations.PowerCycleLosesAllState : Prop :=
  (∀ (s : State) (rest : List Input) (ch : Chain) (presented : Option CommandWord),
    s.inputs = .powerCycle ch presented :: rest →
    step s = .next
      { State.powerUp s.cfg ch with
        inputs := rest
        trace := s.trace ++ [.data false, .clk false, .latch true, .oeN true] }) ∧
  (∀ (s s' : State) (rest : List Input) (ch : Chain) (presented presented' : Option CommandWord),
    s.inputs = .powerCycle ch presented :: rest → s'.inputs = .powerCycle ch presented' :: rest →
    s.cfg = s'.cfg → s.trace = s'.trace →
    ∃ t, step s = .next t ∧ step s' = .next t ∧ t.chain = ch ∧
      t.db = (State.powerUp s.cfg ch).db ∧ t.timers = initialTimers s.cfg ∧ t.rb = 0 ∧ t.oe = true)

/-- The invariant holds right after a reset of every legal instance, whatever the chain holds (R20, R46). -/
def Obligations.EveryLegalResetSatisfiesInvariant : Prop :=
  ∀ (p : Params) (ch : Chain), p.Legal → (State.powerUp p ch).Inv

/-- The invariant holds at the model's own reset state (INSTANCE_T, log entry 2). -/
def Obligations.ResetStateSatisfiesInvariant : Prop := State.reset.Inv

/-- Every step keeps the invariant, from every state that has it: legal parameters, the pool's size, the
select bits and unused bits of the display, the accumulator law, the idle pins, the cause codes. -/
def Obligations.EveryStepKeepsInvariant : Prop :=
  ∀ s t : State, s.Inv → step s = .next t → t.Inv

/-- The inference the spec marks as derived in R20: after reset and after every list of events, each display word has its own select bit and no other;
and a command that changes a display word writes it with its select bit. -/
def Obligations.SelectBitsAlongEveryRun : Prop :=
  (∀ (p : Params) (ch : Chain) (es : List Input), p.Legal → ∀ q : Fin 4,
    (runEvents es (State.powerUp p ch)).db.get q &&& p.selMaskAll = p.dst q) ∧
  (∀ (i : Instr) (s t : State) (q : Fin 4), exec i s = .next t → t.db.get q ≠ s.db.get q →
    t.db.get q &&& s.cfg.dst q = s.cfg.dst q)

/-- A run takes every event of its list, one a step, in order: it ends with no event waiting, a run of two
lists one after the other is the run of both, and the parameters of the instance never change
(R57, R130, R43). -/
def Obligations.RunsTakeEventsInOrder : Prop :=
  (∀ (s : State) (es : List Input), (runEvents es s).inputs = [] ∧ (runEvents es s).cfg = s.cfg) ∧
  (∀ (s : State) (es es' : List Input),
    runEvents (es ++ es') s = runEvents es' (runEvents es s))

/-! ## What each command may write -/

/-- The writers of each piece of state, over all commands and all states: a register changes only by the
commands the spec names for it (R17, R27, R28, R30, R32, R33, R34, R35, R39), a timer's mask and timeout by
TCFG alone (R32), and FAULT and CAUSE only by a fault, which only a block that is not halted takes (R37). The
form of the pin trace is the model's (log entry 8). -/
def Obligations.OnlyTheNamedCommandsWrite : Prop :=
  ∀ (i : Instr) (s t : State), exec i s = .next t →
    (i.opcode.toNat ∉ [0x10, 0x11, 0x12, 0x13, 0x14] → t.db = s.db) ∧
    (i.opcode.toNat ∉ [0x13, 0x14] → t.colon = s.colon) ∧
    (i.opcode.toNat ∉ [0x20, 0x21, 0x41, 0x42, 0x43] → t.rb = s.rb) ∧
    (i.opcode.toNat ∉ [0x25, 0x26] → t.oe = s.oe) ∧
    (i.opcode.toNat ∉ [0x40, 0x41, 0x42, 0x43] → t.timers = s.timers) ∧
    t.timers.length = s.timers.length ∧
    (i.opcode.toNat ≠ 0x40 → ∀ j : Nat,
      (t.timers[j]?).map (fun tm => (tm.relayMask, tm.timeoutMs)) =
        (s.timers[j]?).map (fun tm => (tm.relayMask, tm.timeoutMs))) ∧
    (i.opcode.toNat ∉ [0x40, 0x41] → ∀ j : Nat,
      (t.timers[j]?).map Timer.startTimestamp = (s.timers[j]?).map Timer.startTimestamp) ∧
    (t.fault ≠ s.fault ∨ t.cause ≠ s.cause →
      s.fault = false ∧ ∃ c : FaultCause, t = s.enterFault c) ∧
    (i.opcode.toNat ≠ 0x50 → t.fLast = s.fLast ∧ t.fAcc = s.fAcc ∧ t.fSp = s.fSp) ∧
    (i.opcode.toNat = 0x50 →
      t = { s with fLast := t.fLast, fAcc := t.fAcc, fSp := t.fSp }) ∧
    (i.opcode.toNat ≠ 0x51 → t.fState = s.fState) ∧
    (i.opcode.toNat ≠ 0x52 →
      t.thLower = s.thLower ∧ t.thUpper = s.thUpper ∧ t.thStopped = s.thStopped) ∧
    (i.opcode.toNat ≠ 0x30 → t.pins = s.pins ∧ t.chain = s.chain) ∧
    (i.opcode.toNat ∉ [0x25, 0x26, 0x30] → t.trace = s.trace) ∧
    t.inputs = s.inputs ∧ t.cfg = s.cfg

/-- R54: DBREAD, RGET, RISON, RMASK, TREM, TACTIVE, FREAD and STATUS change no state but RESULT, unless they
fault; REFRESH changes no register of the block but RESULT. -/
def Obligations.ReadsChangeOnlyResult : Prop :=
  ∀ (i : Instr) (s t : State), exec i s = .next t → t.fault = s.fault →
    (i.opcode.toNat ∈ [0x15, 0x22, 0x23, 0x24, 0x44, 0x45, 0x53, 0x60] →
      t = { s with result := t.result }) ∧
    (i.opcode.toNat = 0x30 →
      t = { s with pins := t.pins, chain := t.chain, trace := t.trace, result := t.result })

/-- The inference the spec marks as derived in R55: issuing the same command twice in a row leaves what issuing it once leaves, for every command but
TCOLON and FSAMPLE, in every state and for every form, the faulting ones too; REFRESH leaves the same
registers, pins and chain and drives the pins again (so do RENABLE and RDISABLE in the model's pin trace,
log entry 8); TCOLON toggles; a second edge at the same time has delta 0 and changes F_ACC unless F_SP
is 0. -/
def Obligations.CommandsAreIdempotent : Prop :=
  (∀ (i : Instr) (s t : State), i.opcode.toNat ∉ [0x14, 0x25, 0x26, 0x30, 0x50] →
    exec i s = .next t → exec i t = .next t) ∧
  (∀ (i : Instr) (s t u : State), i.opcode.toNat ∈ [0x25, 0x26, 0x30] → s.pins.clk = false →
    exec i s = .next t → exec i t = .next u → u = { t with trace := u.trace }) ∧
  (∀ (f : Fields) (s t u : State), s.fault = false → (Instr.tcolon f).reservedClear = true →
    exec (.tcolon f) s = .next t → exec (.tcolon f) t = .next u →
    t.colon = !s.colon ∧ u.colon = s.colon) ∧
  (∀ (now : Word32) (s t u : State), s.fault = false →
    exec (.fsample ⟨0, 0, 0, now⟩) s = .next t → exec (.fsample ⟨0, 0, 0, now⟩) t = .next u →
    u.fAcc = t.fAcc - t.fSp ∧ (u.fAcc = t.fAcc ↔ t.fSp = 0))

/-- The agents share only F_LAST, F_ACC and F_SP, and the FAULT flag (R122): a command that reads none of the
three registers and does not fault may come before or after an edge with the same end. -/
def Obligations.CommandsCommuteWithEdges : Prop :=
  ∀ (i : Instr) (s t : State) (now : Word32), i.opcode.toNat ∉ [0x50, 0x51, 0x53] →
    s.fault = false → exec i s = .next t → t.fault = false →
    ∃ u v, exec (.fsample ⟨0, 0, 0, now⟩) t = .next u ∧
      exec (.fsample ⟨0, 0, 0, now⟩) s = .next v ∧ exec i v = .next u

/-! ## Tables and the display -/

/-- R22: in every legal parameter set a table entry has a 0 at exactly the lit segments' bits among the eight
segment bits, 0 at every select bit and every unused bit, and a dark decimal point. -/
def Obligations.CharacterTableEntries : Prop :=
  ∀ (p : Params) (k : Fin 17), p.Legal →
    (∀ seg : Segment, (p.ct k).getLsbD (p.segBit.bit seg).val = !((p.glyph.get k).contains seg)) ∧
    p.ct k &&& p.selMaskAll = 0 ∧ p.ct k &&& p.unusedMask = 0 ∧ p.ct k &&& p.dpMask = p.dpMask

/-- What the golden vector fixes of a legal pin map (an inference the spec marks as derived in R19): SEL_BIT(0) is one of 9, 10, 13, 14, the other three
are the segment bits dark in symbol 3, which lights five segments, and every other pin lies outside. -/
def Obligations.GoldenVectorFixesPins : Prop :=
  ∀ p : Params, p.Legal →
    (p.selBit.get 0).val ∈ [9, 10, 13, 14] ∧
    (Segment.all.filter fun seg => (p.glyph.get 3).contains seg).length = 5 ∧
    (∀ seg : Segment, (p.glyph.get 3).contains seg = false ↔
      (p.segBit.bit seg).val ∈ [9, 10, 13, 14]) ∧
    (∀ q : Fin 4, q ≠ 0 → (p.selBit.get q).val ∉ [9, 10, 13, 14])

/-- DIGIT completes: the word of its position becomes the symbol's entry with the position's select bit, and
nothing else changes (R73, R74). -/
def Obligations.DigitWritesItsWord : Prop :=
  ∀ (s : State) (f : Fields) (p : Fin 4) (k : Fin 17),
    s.fault = false → f.a.toNat = p.val → f.b.toNat = k.val → f.c = 0 → f.t = 0 →
    exec (.digit f) s =
      .next { s with db := s.db.set p.val (s.cfg.ct k ||| s.cfg.dst p) p.isLt, result := 0 }

/-- NUMBER completes: positions 0..d-1 show the d low-order decimal digits of the value, most significant
first, the other positions keep their words, and nothing else changes (R75). -/
def Obligations.NumberShowsItsDigits : Prop :=
  ∀ (s : State) (f : Fields), s.fault = false →
    1 ≤ f.a.toNat → f.a.toNat ≤ 4 → f.b = 0 → f.c = 0 → f.t.toNat < 65536 →
    ∃ t, exec (.number f) s = .next t ∧
      t = { s with db := t.db, result := 0 } ∧
      (∀ (p : Fin 4) (k : Fin 17), p.val < f.a.toNat →
        k.val = f.t.toNat / 10 ^ (f.a.toNat - 1 - p.val) % 10 →
        t.db.get p = s.cfg.ct k ||| s.cfg.dst p) ∧
      (∀ p : Fin 4, f.a.toNat ≤ p.val → t.db.get p = s.db.get p)

/-- A value with more than d digits shows its low-order digits: the command is the one of the value modulo
10^d, with no overflow signalled (R75, R112). -/
def Obligations.NumberTruncatesToLowDigits : Prop :=
  ∀ (s : State) (d v : Nat), 1 ≤ d → d ≤ 4 → v < 65536 →
    exec (.number ⟨BitVec.ofNat 8 d, 0, 0, BitVec.ofNat 32 v⟩) s =
      exec (.number ⟨BitVec.ofNat 8 d, 0, 0, BitVec.ofNat 32 (v % 10 ^ d)⟩) s

/-- MESSAGE completes: every position shows the symbol of its row, and nothing else changes (R76). -/
def Obligations.MessageWritesItsRow : Prop :=
  ∀ (s : State) (f : Fields) (m : Fin 4),
    s.fault = false → f.a.toNat = m.val → f.b = 0 → f.c = 0 → f.t = 0 →
    ∃ t, exec (.message f) s = .next t ∧ t = { s with db := t.db, result := 0 } ∧
      ∀ p : Fin 4, t.db.get p = s.cfg.ct ((s.cfg.msg.get m).get p) ||| s.cfg.dst p

/-- COLON and TCOLON complete: both colon halves are lit or dark with their select bits, COLON takes the new
state (for TCOLON the opposite of the flag, which it answers), and nothing else changes (R77, R78). -/
def Obligations.ColonCommandsComplete : Prop :=
  ∀ (s : State) (f : Fields), s.fault = false → f.b = 0 → f.c = 0 → f.t = 0 →
    (∀ en : Bool, f.a = (if en then 1 else 0) →
      ∃ t, exec (.colon f) s = .next t ∧ t = { s with db := t.db, colon := en, result := 0 } ∧
        colonWritten s t en) ∧
    (f.a = 0 →
      ∃ t, exec (.tcolon f) s = .next t ∧
        t = { s with db := t.db, colon := !s.colon, result := if s.colon then 0 else 1 } ∧
        colonWritten s t (!s.colon))

/-- An inference the spec marks as derived in R77: in every state with the invariant the colon commands change at most the two colon bits of the four words,
and leave them as the new COLON says: 0 lit, 1 dark (R77, the property of the source's section 8). -/
def Obligations.ColonTouchesOnlyColonBits : Prop :=
  ∀ (i : Instr) (s t : State), s.Inv → i.opcode.toNat ∈ [0x13, 0x14] → exec i s = .next t →
    t.fault = false →
    t.db.get 0 = s.db.get 0 ∧ t.db.get 3 = s.db.get 3 ∧
    ∀ p : Fin 4, p = 1 ∨ p = 2 →
      (t.db.get p ^^^ s.db.get p) &&& ~~~s.cfg.dpMask = 0 ∧
      (t.db.get p).getLsbD (s.cfg.segBit.bit .dp).val = !t.colon

/-- The inference the spec marks as derived in R134: DIGIT, NUMBER and MESSAGE rewrite whole words and so darken the colon bit of every position they
write, positions 1 and 2 among them; COLON keeps its value. -/
def Obligations.DigitWritesDarkenTheColon : Prop :=
  ∀ (i : Instr) (f : Fields) (s t : State) (p : Fin 4), s.cfg.Legal →
    (i = .digit f ∧ f.a.toNat = p.val) ∨ (i = .number f ∧ p.val < f.a.toNat) ∨ i = .message f →
    s.fault = false → exec i s = .next t → t.fault = false →
    t.colon = s.colon ∧ (t.db.get p).getLsbD (s.cfg.segBit.bit .dp).val = true

/-- DBREAD completes: RESULT is the word of its position, zero-extended (R79). -/
def Obligations.DbreadReturnsTheWord : Prop :=
  ∀ (s : State) (f : Fields) (p : Fin 4),
    s.fault = false → f.a.toNat = p.val → f.b = 0 → f.c = 0 → f.t = 0 →
    exec (.dbread f) s = .next { s with result := (s.db.get p).setWidth 32 }

/-! ## Relays -/

/-- R81: the relay-number map, for every 8-bit relay number. -/
def Obligations.RelayNumberMap : Prop :=
  ∀ n : Byte,
    (1 ≤ n.toNat ∧ n.toNat ≤ 7 → relayMask n = BitVec.twoPow 8 n.toNat) ∧
    (n.toNat = 0 ∨ 8 ≤ n.toNat → relayMask n = BitVec.twoPow 8 0)

/-- RSET completes for every mask and state: bits in the mask take the state's, the others keep theirs, and
nothing else changes (R80). -/
def Obligations.RsetUpdatesUnderTheMask : Prop :=
  ∀ (s : State) (f : Fields), s.fault = false → f.c = 0 → f.t = 0 →
    ∃ t, exec (.rset f) s = .next t ∧ t = { s with rb := t.rb, result := 0 } ∧
      t.rb &&& f.a = f.b &&& f.a ∧ t.rb &&& ~~~f.a = s.rb &&& ~~~f.a

/-- RSETN completes for every relay number: it sets or clears the one bit of the relay, and nothing else
changes (R83). -/
def Obligations.RsetnSetsOneRelayBit : Prop :=
  ∀ (s : State) (f : Fields) (on : Bool), s.fault = false →
    f.b = (if on then 1 else 0) → f.c = 0 → f.t = 0 →
    ∃ t, exec (.rsetn f) s = .next t ∧ t = { s with rb := t.rb, result := 0 } ∧
      ∀ j < 8, t.rb.getLsbD j =
        if j = (if f.a.toNat ≤ 7 then f.a.toNat else 0) then on else s.rb.getLsbD j

/-- RGET, RISON and RMASK complete with their results and change nothing but RESULT (R82, R84, R85). -/
def Obligations.RelayReadsComplete : Prop :=
  ∀ (s : State) (f : Fields), s.fault = false → f.b = 0 → f.c = 0 → f.t = 0 →
    exec (.rget f) s = .next { s with result := (s.rb &&& f.a).setWidth 32 } ∧
    exec (.rison f) s =
      .next { s with result := if s.rb &&& relayMask f.a ≠ 0 then 1 else 0 } ∧
    exec (.rmask f) s = .next { s with result := (relayMask f.a).setWidth 32 }

/-- RENABLE and RDISABLE complete: OE and its pin take the level at once, RB and the latched outputs are kept;
after RDISABLE no relay is energized, after RENABLE exactly those of the byte latched last (R41, R86, R87).
That the trace records the write is the model's (log entry 8). -/
def Obligations.OutputEnableGatesTheRelays : Prop :=
  ∀ (s : State) (f : Fields), s.fault = false → f.a = 0 → f.b = 0 → f.c = 0 → f.t = 0 →
    (∃ t, exec (.renable f) s = .next t ∧
      t = { s with oe := false, result := 0, trace := s.trace ++ [.oeN false] } ∧
      t.oeN = false ∧
      ∀ n : Byte, t.relayEnergized n = (s.chain.outRelay &&& relayMask n != 0)) ∧
    (∃ t, exec (.rdisable f) s = .next t ∧
      t = { s with oe := true, result := 0, trace := s.trace ++ [.oeN true] } ∧
      t.oeN = true ∧ ∀ n : Byte, t.relayEnergized n = false)

/-! ## The serial bus -/

/-- The bits of a frame on DATA at the rising edges of CLK, in time order (R49): the low byte of the display
word, its high byte, the relay byte, each MSB first; one LATCH rising edge closes the frame (R88). -/
def Obligations.WireOrderOfAFrame : Prop :=
  ∀ (F : Frame) (data : Bool),
    sentBits data false (frameWrites F) =
      [7, 6, 5, 4, 3, 2, 1, 0, 15, 14, 13, 12, 11, 10, 9, 8, 23, 22, 21, 20, 19, 18, 17, 16].map
        (fun j => F.getLsbD j) ∧
    clkRises false (frameWrites F) = 24 ∧ latchRises true (frameWrites F) = 1

/-- The inference the spec marks as derived in R89: whatever the chain held, after the 24 clock edges of a frame it holds the frame's bytes with the low
byte furthest down and the outputs are still the previous ones; the latch edge then commits all three. -/
def Obligations.ChainAfterAFrame : Prop :=
  ∀ (s : State) (rb : Byte) (w : DisplayWord), s.pins.clk = false →
    (let t := s.driveAll (frameWrites (rb ++ w)).dropLast
     t.chain.shift.extractLsb' 16 8 = w.extractLsb' 0 8 ∧
     t.chain.shift.extractLsb' 8 8 = w.extractLsb' 8 8 ∧
     t.chain.shift.extractLsb' 0 8 = rb ∧
     t.chain.outRelay = s.chain.outRelay ∧ t.chain.outHi = s.chain.outHi ∧
     t.chain.outLo = s.chain.outLo) ∧
    (let t := s.emitFrame (rb ++ w)
     t.chain.outLo = w.extractLsb' 0 8 ∧ t.chain.outHi = w.extractLsb' 8 8 ∧
     t.chain.outRelay = rb)

/-- REFRESH completes: twelve bytes and four latch pulses on the pins, each frame in the order of R88; no
register of the block changes; at its end the relay outputs are RB, the display outputs the word of position 3,
and the pins idle (R90, R91). That the trace lists every level driven, unchanged levels too, is the model's (log
entry 8). -/
def Obligations.RefreshDrivesFourFrames : Prop :=
  ∀ (s : State) (f : Fields), s.fault = false → s.pins.clk = false → s.pins.latch = true →
    f.a = 0 → f.b = 0 → f.c = 0 → f.t = 0 →
    ∃ t ws, exec (.refresh f) s = .next t ∧
      t = { s with pins := t.pins, chain := t.chain, trace := s.trace ++ ws, result := 0 } ∧
      ws = frameWrites (s.rb ++ s.db.get 0) ++ frameWrites (s.rb ++ s.db.get 1)
        ++ frameWrites (s.rb ++ s.db.get 2) ++ frameWrites (s.rb ++ s.db.get 3) ∧
      clkRises s.pins.clk ws = 96 ∧ latchRises s.pins.latch ws = 4 ∧
      t.chain.outRelay = s.rb ∧ t.shownWord = s.db.get 3 ∧
      t.pins.clk = false ∧ t.pins.latch = true

/-- The inference the spec marks as derived in R91: during a refresh, after the frame of position p the display enables position p alone and shows its word,
and the relay outputs are RB after every frame (R91). -/
def Obligations.RefreshShowsOneDigitAtATime : Prop :=
  ∀ (s : State) (p : Fin 4), s.Inv →
    (let t := (positions.take (p.val + 1)).foldl (fun u q => u.emitFrame (u.frame q)) s
     t.chain.outRelay = s.rb ∧ t.shownWord = s.db.get p ∧
     (∀ q : Fin 4, t.digitEnabled q = (q == p)) ∧
     (∀ seg : Segment,
       t.segmentLit p seg = !(s.db.get p).getLsbD (s.cfg.segBit.bit seg).val))

/-- The inference the spec marks as derived in R131, as a property of programs: when no RENABLE stands before the first REFRESH, no relay is ever
energized from the unspecified contents the chain has after power-up: two power-ups that differ only in
these contents energize the same relays at every point of the program. -/
def Obligations.EnableAfterRefreshHidesPowerOnLatch : Prop :=
  ∀ (p : Params) (ch ch' : Chain) (es : List Input) (n : Nat) (r : Byte),
    (∀ e ∈ es, e.ofProgram = true) → enablesAfterRefresh es = true →
    (runEvents (es.take n) (State.powerUp p ch)).relayEnergized r =
      (runEvents (es.take n) (State.powerUp p ch')).relayEnergized r

/-! ## RelayTimers -/

/-- R95: elapsed time is the 32-bit difference, exact across one wrap of the counter and wrong for a real
interval of 2^32 or more. -/
def Obligations.ElapsedIsExactAcrossAWrap : Prop :=
  ∀ start now : Word32,
    (∀ interval : Nat,
      (elapsed (start + BitVec.ofNat 32 interval) start).toNat = interval ↔ interval < 2 ^ 32) ∧
    (elapsed now start).toNat =
      if start.toNat ≤ now.toNat then now.toNat - start.toNat
      else now.toNat + 2 ^ 32 - start.toNat

/-- TCFG, TSTART and TSTOP complete on every timer of the pool, each with its effect on the timer and on RB
(R97, R98, R100). -/
def Obligations.TimerWritesComplete : Prop :=
  ∀ (s : State) (f : Fields) (tm : Timer), s.fault = false → s.timers[f.a.toNat]? = some tm →
    f.c = 0 →
    exec (.tcfg f) s =
      .next { s with timers := s.timers.set f.a.toNat ⟨f.b, f.t, 0, false⟩, result := 0 } ∧
    (f.b = 0 → exec (.tstart f) s =
      .next { s with
        timers := s.timers.set f.a.toNat { tm with startTimestamp := f.t, active := true }
        rb := s.rb ||| tm.relayMask, result := 0 }) ∧
    (f.b = 0 → f.t = 0 → exec (.tstop f) s =
      .next { s with
        timers := s.timers.set f.a.toNat { tm with active := false }
        rb := s.rb &&& ~~~tm.relayMask, result := 0 })

/-- TTICK completes: an Active timer whose elapsed time is strictly above its timeout becomes Idle and its
relays turn off; otherwise nothing changes; RESULT is `active` after (R99). -/
def Obligations.TtickExpiresStrictly : Prop :=
  ∀ (s : State) (f : Fields) (tm : Timer), s.fault = false → s.timers[f.a.toNat]? = some tm →
    f.b = 0 → f.c = 0 →
    (tm.active = true → tm.timeoutMs.toNat < (f.t - tm.startTimestamp).toNat →
      exec (.ttick f) s = .next { s with
        timers := s.timers.set f.a.toNat { tm with active := false }
        rb := s.rb &&& ~~~tm.relayMask, result := 0 }) ∧
    (tm.active = true → (f.t - tm.startTimestamp).toNat ≤ tm.timeoutMs.toNat →
      exec (.ttick f) s = .next { s with result := 1 }) ∧
    (tm.active = false → exec (.ttick f) s = .next { s with result := 0 })

/-- TREM and TACTIVE complete and change nothing but RESULT: while elapsed ≤ timeout the remaining time is the
difference, past it the value underflows, and an Idle timer answers the sentinel (R101, R102). -/
def Obligations.TimerReadsComplete : Prop :=
  ∀ (s : State) (f : Fields) (tm : Timer), s.fault = false → s.timers[f.a.toNat]? = some tm →
    f.b = 0 → f.c = 0 →
    (∃ r : Word32, exec (.trem f) s = .next { s with result := r } ∧
      (tm.active = true → (f.t - tm.startTimestamp).toNat ≤ tm.timeoutMs.toNat →
        r.toNat = tm.timeoutMs.toNat - (f.t - tm.startTimestamp).toNat) ∧
      (tm.active = true → ∀ k, 1 ≤ k →
        (f.t - tm.startTimestamp).toNat = tm.timeoutMs.toNat + k → r.toNat = 2 ^ 32 - k) ∧
      (tm.active = false → r = 0xFFFFFFFF)) ∧
    (f.t = 0 → exec (.tactive f) s = .next { s with result := if tm.active then 1 else 0 })

/-- A delay-off from start to expiry (the property of the source's section 8): TSTART turns every relay of the
mask on; a TTICK after `e` milliseconds, across a wrap or not, leaves the timer Active with its relays as
they are when e ≤ timeout, and otherwise makes it Idle and turns them off. -/
def Obligations.DelayOffRunsItsTimeout : Prop :=
  ∀ (s : State) (a : Byte) (tm : Timer) (start e : Word32), s.fault = false →
    s.timers[a.toNat]? = some tm →
    ∃ t u, exec (.tstart ⟨a, 0, 0, start⟩) s = .next t ∧
      exec (.ttick ⟨a, 0, 0, start + e⟩) t = .next u ∧
      t.rb &&& tm.relayMask = tm.relayMask ∧
      (e.toNat ≤ tm.timeoutMs.toNat → u.result = 1 ∧ u.rb = t.rb ∧
        u.timers[a.toNat]? = some { tm with startTimestamp := start, active := true }) ∧
      (tm.timeoutMs.toNat < e.toNat → u.result = 0 ∧ u.rb &&& tm.relayMask = 0 ∧
        u.timers[a.toNat]? = some { tm with startTimestamp := start, active := false })

/-- R96: a command naming timer i writes T[i], RB and RESULT only, or faults; every other timer is unchanged; it
reads T[i] and RB only: two machines that agree on T[i] and RB get the same T[i], RB and RESULT. -/
def Obligations.TimersAreIndependent : Prop :=
  (∀ (i : Instr) (s t : State), i.opcode.toNat ∈ [0x40, 0x41, 0x42, 0x43, 0x44, 0x45] →
    exec i s = .next t →
    t = { s with timers := t.timers, rb := t.rb, result := t.result
                 fault := t.fault, cause := t.cause } ∧
    t.timers.length = s.timers.length ∧
    ∀ j, j ≠ i.fields.a.toNat → t.timers[j]? = s.timers[j]?) ∧
  (∀ (i : Instr) (s s' t t' : State) (tm : Timer),
    i.opcode.toNat ∈ [0x40, 0x41, 0x42, 0x43, 0x44, 0x45] →
    s.fault = s'.fault → s.rb = s'.rb →
    s.timers[i.fields.a.toNat]? = some tm → s'.timers[i.fields.a.toNat]? = some tm →
    exec i s = .next t → exec i s' = .next t' →
    t.timers[i.fields.a.toNat]? = t'.timers[i.fields.a.toNat]? ∧ t.rb = t'.rb ∧
      t.result = t'.result ∧ t.fault = t'.fault)

/-! ## The frequency switch -/

/-- FSAMPLE completes on every edge of a block that is not halted, whatever its registers: the exponential
moving average of R104, with the new accumulator shifted; RESULT is not written. When the smoothed period is
the accumulator shifted, the exact value is not negative, so below 2^32 nothing wraps. -/
def Obligations.FsampleUpdatesTheAverage : Prop :=
  ∀ (s : State) (f : Fields), s.fault = false →
    ∃ t, exec (.fsample f) s = .next t ∧
      t = { s with
        fLast := f.t
        fAcc := (s.fAcc + (f.t - s.fLast)) - s.fSp
        fSp := ((s.fAcc + (f.t - s.fLast)) - s.fSp) >>> s.cfg.smoothShift.val } ∧
      (s.fSp = s.fAcc >>> s.cfg.smoothShift.val →
        s.fSp.toNat ≤ s.fAcc.toNat ∧
        (s.fAcc.toNat + (f.t - s.fLast).toNat - s.fSp.toNat < 2 ^ 32 →
          t.fAcc.toNat = s.fAcc.toNat + (f.t - s.fLast).toNat - s.fSp.toNat))

/-- The law the spec marks as derived in R105: with a constant edge interval P, an accumulator in [P·2^N, P·2^N + 2^N - 1] is left unchanged and
means P; each edge moves it by P - (F_ACC >> N); and from every accumulator the smoothed period reaches P,
within 2^32 edges, and stays there. -/
def Obligations.SmoothingConverges : Prop :=
  ∀ (s : State) (P : Word32), s.fSp = s.fAcc >>> s.cfg.smoothShift.val →
    (P.toNat + 1) * 2 ^ s.cfg.smoothShift.val ≤ 2 ^ 32 →
    (P.toNat * 2 ^ s.cfg.smoothShift.val ≤ s.fAcc.toNat →
      s.fAcc.toNat ≤ P.toNat * 2 ^ s.cfg.smoothShift.val + 2 ^ s.cfg.smoothShift.val - 1 →
      s.fSp = P ∧ (s.sample (s.fLast + P)).fAcc = s.fAcc) ∧
    ((s.sample (s.fLast + P)).fAcc.toNat : Int) =
      s.fAcc.toNat + (P.toNat - s.fAcc.toNat / 2 ^ s.cfg.smoothShift.val : Int) ∧
    (∃ n ≤ 2 ^ 32, ∀ m, n ≤ m → (sampleEvery P m s).fSp = P)

/-- FTICK completes when the thresholds are ordered: silence forces STOPPED, else the three states move by the
listed transitions and by no other; RESULT is the state after; nothing else changes (R106). -/
def Obligations.FtickTransitions : Prop :=
  ∀ (s : State) (f : Fields), s.fault = false → f.a = 0 → f.b = 0 → f.c = 0 →
    s.thLower.toNat < s.thUpper.toNat → s.thUpper.toNat < s.thStopped.toNat →
    ∃ t, exec (.ftick f) s = .next t ∧
      t = { s with fState := t.fState, result := t.fState.code.setWidth 32 } ∧
      (s.thStopped.toNat < (f.t - s.fLast).toNat → t.fState = .stopped) ∧
      ((f.t - s.fLast).toNat ≤ s.thStopped.toNat →
        (s.fState = .stopped →
          (s.fSp.toNat ≤ s.thUpper.toNat → t.fState = .high) ∧
          (s.thUpper.toNat < s.fSp.toNat → s.fSp.toNat < s.thStopped.toNat → t.fState = .low) ∧
          (s.thStopped.toNat ≤ s.fSp.toNat → t.fState = .stopped)) ∧
        (s.fState = .low →
          (s.fSp.toNat < s.thLower.toNat → t.fState = .high) ∧
          (s.thLower.toNat ≤ s.fSp.toNat → s.fSp.toNat ≤ s.thStopped.toNat → t.fState = .low) ∧
          (s.thStopped.toNat < s.fSp.toNat → t.fState = .stopped)) ∧
        (s.fState = .high →
          (s.fSp.toNat ≤ s.thUpper.toNat → t.fState = .high) ∧
          (s.thUpper.toNat < s.fSp.toNat → s.fSp.toNat ≤ s.thStopped.toNat → t.fState = .low) ∧
          (s.thStopped.toNat < s.fSp.toNat → t.fState = .stopped)))

/-- The hysteresis laws the spec marks as derived in R107, with ordered thresholds and no silence: when each state is left, that a period
in [TH_LOWER, TH_UPPER] moves neither LOW nor HIGH, that from STOPPED it goes to HIGH, and that every state
is reached from every state in one FTICK. -/
def Obligations.HysteresisLaws : Prop :=
  ∀ (s t : State) (f : Fields), s.fault = false → s.thresholdsOrdered = true →
    exec (.ftick f) s = .next t → t.fault = false →
    (f.t - s.fLast).toNat ≤ s.thStopped.toNat →
    (s.fState = .low → (t.fState = .high ↔ s.fSp.toNat < s.thLower.toNat)) ∧
    (s.fState = .high → (t.fState = .low ↔
      s.thUpper.toNat < s.fSp.toNat ∧ s.fSp.toNat ≤ s.thStopped.toNat)) ∧
    (s.fState = .low → (t.fState = .stopped ↔ s.thStopped.toNat < s.fSp.toNat)) ∧
    (s.thLower.toNat ≤ s.fSp.toNat → s.fSp.toNat ≤ s.thUpper.toNat →
      (s.fState ≠ .stopped → t.fState = s.fState) ∧ (s.fState = .stopped → t.fState = .high)) ∧
    (∀ before after : FreqState, ∃ (u v : State) (g : Fields), u.fault = false ∧
      u.thresholdsOrdered = true ∧ u.fState = before ∧ exec (.ftick g) u = .next v ∧
      v.fault = false ∧ v.fState = after)

/-- The inference the spec marks as derived in R108: from reset, before any edge, an FTICK at or below TH_STOPPED answers HIGH although no signal is
present, and one above it keeps STOPPED. -/
def Obligations.StartUpTransient : Prop :=
  ∀ (p : Params) (ch : Chain) (now : Word32), p.thLowerInit.toNat < p.thUpperInit.toNat →
    p.thUpperInit.toNat < p.thStoppedInit.toNat →
    ∃ t, exec (.ftick ⟨0, 0, 0, now⟩) (State.powerUp p ch) = .next t ∧
      (now.toNat ≤ p.thStoppedInit.toNat → t.fState = .high ∧ t.result = 2) ∧
      (p.thStoppedInit.toNat < now.toNat → t.fState = .stopped ∧ t.result = 0)

/-- FSETTH and FREAD complete for every selector in range: FSETTH writes the one threshold it names, whatever
the order of the three, and FREAD answers the register it names (R109, R110). -/
def Obligations.ThresholdWriteAndReadback : Prop :=
  ∀ (s : State) (f : Fields), s.fault = false → f.b = 0 → f.c = 0 →
    (f.a.toNat = 0 → exec (.fsetth f) s = .next { s with thLower := f.t, result := 0 }) ∧
    (f.a.toNat = 1 → exec (.fsetth f) s = .next { s with thUpper := f.t, result := 0 }) ∧
    (f.a.toNat = 2 → exec (.fsetth f) s = .next { s with thStopped := f.t, result := 0 }) ∧
    (f.t = 0 →
      (f.a.toNat = 0 → exec (.fread f) s = .next { s with result := s.thLower }) ∧
      (f.a.toNat = 1 → exec (.fread f) s = .next { s with result := s.thUpper }) ∧
      (f.a.toNat = 2 → exec (.fread f) s = .next { s with result := s.thStopped }) ∧
      (f.a.toNat = 3 → exec (.fread f) s = .next { s with result := s.fSp }) ∧
      (f.a.toNat = 4 → exec (.fread f) s = .next { s with result := s.fAcc }) ∧
      (f.a.toNat = 5 → exec (.fread f) s = .next { s with result := s.fLast }) ∧
      (f.a.toNat = 6 →
        exec (.fread f) s = .next { s with result := s.fState.code.setWidth 32 }))

/-! ## Status and the assembler -/

/-- R111: STATUS answers the status word, bit by bit, halted or not; with a reserved bit set it faults, or is
ignored while halted; right after a reset it answers 0x20. -/
def Obligations.StatusReportsTheFlags : Prop :=
  encode (.status ⟨0, 0, 0, 0⟩) = 0x6000000000000000 ∧
  (∀ (s : State) (f : Fields), f.a = 0 → f.b = 0 → f.c = 0 → f.t = 0 →
    ∃ t, exec (.status f) s = .next t ∧ t = { s with result := t.result } ∧
      t.result.extractLsb' 0 4 = s.cause ∧ t.result.getLsbD 4 = s.fault ∧
      t.result.getLsbD 5 = s.oe ∧ t.result.getLsbD 6 = s.colon ∧ t.result >>> 7 = 0) ∧
  (∀ (s : State) (f : Fields), ¬(f.a = 0 ∧ f.b = 0 ∧ f.c = 0 ∧ f.t = 0) →
    exec (.status f) s =
      if s.fault then .next { s with result := 0 }
      else .next { s with fault := true, cause := 2, result := 0 }) ∧
  (∀ (p : Params) (ch : Chain),
    exec (.status ⟨0, 0, 0, 0⟩) (State.powerUp p ch) =
      .next { State.powerUp p ch with result := 0x20 })

/-- R72: the expansion of every pseudo-instruction; those without operands as their lines assemble. -/
def Obligations.PseudoInstructionsExpand : Prop :=
  (∀ v, (Pseudo.display v).expand = .number ⟨4, 0, 0, v⟩) ∧
  (∀ p k, (Pseudo.char p k).expand = .digit ⟨p, k, 0, 0⟩) ∧
  (∀ n, (Pseudo.ron n).expand = .rsetn ⟨n, 1, 0, 0⟩) ∧
  (∀ n, (Pseudo.roff n).expand = .rsetn ⟨n, 0, 0, 0⟩) ∧
  assembleLine ['R', 'A', 'L', 'L', 'O', 'N'] =
    .event (.command (encode (.rset ⟨0xFF, 0xFF, 0, 0⟩))) ∧
  assembleLine ['R', 'A', 'L', 'L', 'O', 'F', 'F'] =
    .event (.command (encode (.rset ⟨0xFF, 0x00, 0, 0⟩))) ∧
  assembleLine ['C', 'O', 'L', 'O', 'N', ' ', 'O', 'N'] =
    .event (.command (encode (.colon ⟨1, 0, 0, 0⟩))) ∧
  assembleLine ['C', 'O', 'L', 'O', 'N', ' ', 'O', 'F', 'F'] =
    .event (.command (encode (.colon ⟨0, 0, 0, 0⟩)))

/-! ## The opcode map -/

/-- The opcode map of R64 in the format of R61, row by row: the word of each of the 25 OP numbers, with any
operand fields, is the command that the map names; and the one row of agent E is OP 0x50. -/
def Obligations.OpcodeMapNamesEveryCommand : Prop :=
  (∀ f : Fields,
    decode (0x10#8 ++ f.a ++ f.b ++ f.c ++ f.t) = .term (.digit f) ∧
    decode (0x11#8 ++ f.a ++ f.b ++ f.c ++ f.t) = .term (.number f) ∧
    decode (0x12#8 ++ f.a ++ f.b ++ f.c ++ f.t) = .term (.message f) ∧
    decode (0x13#8 ++ f.a ++ f.b ++ f.c ++ f.t) = .term (.colon f) ∧
    decode (0x14#8 ++ f.a ++ f.b ++ f.c ++ f.t) = .term (.tcolon f) ∧
    decode (0x15#8 ++ f.a ++ f.b ++ f.c ++ f.t) = .term (.dbread f) ∧
    decode (0x20#8 ++ f.a ++ f.b ++ f.c ++ f.t) = .term (.rset f) ∧
    decode (0x21#8 ++ f.a ++ f.b ++ f.c ++ f.t) = .term (.rsetn f) ∧
    decode (0x22#8 ++ f.a ++ f.b ++ f.c ++ f.t) = .term (.rget f) ∧
    decode (0x23#8 ++ f.a ++ f.b ++ f.c ++ f.t) = .term (.rison f) ∧
    decode (0x24#8 ++ f.a ++ f.b ++ f.c ++ f.t) = .term (.rmask f) ∧
    decode (0x25#8 ++ f.a ++ f.b ++ f.c ++ f.t) = .term (.renable f) ∧
    decode (0x26#8 ++ f.a ++ f.b ++ f.c ++ f.t) = .term (.rdisable f) ∧
    decode (0x30#8 ++ f.a ++ f.b ++ f.c ++ f.t) = .term (.refresh f) ∧
    decode (0x40#8 ++ f.a ++ f.b ++ f.c ++ f.t) = .term (.tcfg f) ∧
    decode (0x41#8 ++ f.a ++ f.b ++ f.c ++ f.t) = .term (.tstart f) ∧
    decode (0x42#8 ++ f.a ++ f.b ++ f.c ++ f.t) = .term (.ttick f) ∧
    decode (0x43#8 ++ f.a ++ f.b ++ f.c ++ f.t) = .term (.tstop f) ∧
    decode (0x44#8 ++ f.a ++ f.b ++ f.c ++ f.t) = .term (.trem f) ∧
    decode (0x45#8 ++ f.a ++ f.b ++ f.c ++ f.t) = .term (.tactive f) ∧
    decode (0x50#8 ++ f.a ++ f.b ++ f.c ++ f.t) = .term (.fsample f) ∧
    decode (0x51#8 ++ f.a ++ f.b ++ f.c ++ f.t) = .term (.ftick f) ∧
    decode (0x52#8 ++ f.a ++ f.b ++ f.c ++ f.t) = .term (.fsetth f) ∧
    decode (0x53#8 ++ f.a ++ f.b ++ f.c ++ f.t) = .term (.fread f) ∧
    decode (0x60#8 ++ f.a ++ f.b ++ f.c ++ f.t) = .term (.status f)) ∧
  (∀ i : Instr, i.agent = .E ↔ i.opcode = 0x50)

/-! ## What a run ends with -/

/-- RESULT after each command is part of the end of a run (R130): the run records one value for every command
word and none for another event, each the RESULT that stood right after its command, and the record of a run of
two lists one after the other is the two records joined. That a command which faults or is ignored has its
value too is read from R63 (log entry 22). -/
def Obligations.RunsRecordEveryResult : Prop :=
  (∀ (es : List Input) (s : State),
    (runFrom es s).results.length = (es.filter Input.isCommand).length) ∧
  (∀ (es : List Input) (s : State) (n : Nat) (w : CommandWord), es[n]? = some (.command w) →
    (runFrom es s).results[((es.take n).filter Input.isCommand).length]? =
      some (runFrom (es.take (n + 1)) s).state.result) ∧
  (∀ (es es' : List Input) (s : State),
    (runFrom (es ++ es') s).results =
      (runFrom es s).results ++ (runFrom es' (runFrom es s).state).results)
end

