-- ==== Sys2Proof/Laws/State.lean ====
section
/-! SUPPORT. For each named update of the state, what it leaves in each field: one lemma a field, true by
definition, so that no later proof unfolds a record update. The field it writes comes with its
new value; every other field is the one before. -/

namespace Sys2Proof.Machine

/-! What each pin write does to the pins, the chain and OE (R39, R40). -/

@[simp] theorem Pins.write_data (p : Pins) (b : Bool) : p.write (.data b) = { p with data := b } := rfl
@[simp] theorem Pins.write_clk (p : Pins) (b : Bool) : p.write (.clk b) = { p with clk := b } := rfl
@[simp] theorem Pins.write_latch (p : Pins) (b : Bool) : p.write (.latch b) = { p with latch := b } := rfl
@[simp] theorem Pins.write_oeN (p : Pins) (b : Bool) : p.write (.oeN b) = p := rfl
@[simp] theorem Chain.onWrite_data (c : Chain) (p : Pins) (b : Bool) : c.onWrite p (.data b) = c := rfl
@[simp] theorem Chain.onWrite_clk (c : Chain) (p : Pins) (b : Bool) : c.onWrite p (.clk b) = c.onClk p b := rfl
@[simp] theorem Chain.onWrite_latch (c : Chain) (p : Pins) (b : Bool) : c.onWrite p (.latch b) = c.onLatch p b := rfl
@[simp] theorem Chain.onWrite_oeN (c : Chain) (p : Pins) (b : Bool) : c.onWrite p (.oeN b) = c := rfl
@[simp] theorem oeAfter_data (e b : Bool) : oeAfter e (.data b) = e := rfl
@[simp] theorem oeAfter_clk (e b : Bool) : oeAfter e (.clk b) = e := rfl
@[simp] theorem oeAfter_latch (e b : Bool) : oeAfter e (.latch b) = e := rfl
@[simp] theorem oeAfter_oeN (e b : Bool) : oeAfter e (.oeN b) = b := rfl

namespace State

variable (s : State)

/-! `RESULT <- r` (R13) -/

@[simp] theorem setResult_db (r : Word32) : (s.setResult r).db = s.db := rfl
@[simp] theorem setResult_colon (r : Word32) : (s.setResult r).colon = s.colon := rfl
@[simp] theorem setResult_rb (r : Word32) : (s.setResult r).rb = s.rb := rfl
@[simp] theorem setResult_oe (r : Word32) : (s.setResult r).oe = s.oe := rfl
@[simp] theorem setResult_timers (r : Word32) : (s.setResult r).timers = s.timers := rfl
@[simp] theorem setResult_fLast (r : Word32) : (s.setResult r).fLast = s.fLast := rfl
@[simp] theorem setResult_fAcc (r : Word32) : (s.setResult r).fAcc = s.fAcc := rfl
@[simp] theorem setResult_fSp (r : Word32) : (s.setResult r).fSp = s.fSp := rfl
@[simp] theorem setResult_fState (r : Word32) : (s.setResult r).fState = s.fState := rfl
@[simp] theorem setResult_thLower (r : Word32) : (s.setResult r).thLower = s.thLower := rfl
@[simp] theorem setResult_thUpper (r : Word32) : (s.setResult r).thUpper = s.thUpper := rfl
@[simp] theorem setResult_thStopped (r : Word32) : (s.setResult r).thStopped = s.thStopped := rfl
@[simp] theorem setResult_fault (r : Word32) : (s.setResult r).fault = s.fault := rfl
@[simp] theorem setResult_cause (r : Word32) : (s.setResult r).cause = s.cause := rfl
@[simp] theorem setResult_result (r : Word32) : (s.setResult r).result = r := rfl
@[simp] theorem setResult_pins (r : Word32) : (s.setResult r).pins = s.pins := rfl
@[simp] theorem setResult_chain (r : Word32) : (s.setResult r).chain = s.chain := rfl
@[simp] theorem setResult_trace (r : Word32) : (s.setResult r).trace = s.trace := rfl
@[simp] theorem setResult_inputs (r : Word32) : (s.setResult r).inputs = s.inputs := rfl
@[simp] theorem setResult_cfg (r : Word32) : (s.setResult r).cfg = s.cfg := rfl

/-! taking a fault (R115) -/

@[simp] theorem enterFault_db (c : FaultCause) : (s.enterFault c).db = s.db := rfl
@[simp] theorem enterFault_colon (c : FaultCause) : (s.enterFault c).colon = s.colon := rfl
@[simp] theorem enterFault_rb (c : FaultCause) : (s.enterFault c).rb = s.rb := rfl
@[simp] theorem enterFault_oe (c : FaultCause) : (s.enterFault c).oe = s.oe := rfl
@[simp] theorem enterFault_timers (c : FaultCause) : (s.enterFault c).timers = s.timers := rfl
@[simp] theorem enterFault_fLast (c : FaultCause) : (s.enterFault c).fLast = s.fLast := rfl
@[simp] theorem enterFault_fAcc (c : FaultCause) : (s.enterFault c).fAcc = s.fAcc := rfl
@[simp] theorem enterFault_fSp (c : FaultCause) : (s.enterFault c).fSp = s.fSp := rfl
@[simp] theorem enterFault_fState (c : FaultCause) : (s.enterFault c).fState = s.fState := rfl
@[simp] theorem enterFault_thLower (c : FaultCause) : (s.enterFault c).thLower = s.thLower := rfl
@[simp] theorem enterFault_thUpper (c : FaultCause) : (s.enterFault c).thUpper = s.thUpper := rfl
@[simp] theorem enterFault_thStopped (c : FaultCause) : (s.enterFault c).thStopped = s.thStopped := rfl
@[simp] theorem enterFault_fault (c : FaultCause) : (s.enterFault c).fault = true := rfl
@[simp] theorem enterFault_cause (c : FaultCause) : (s.enterFault c).cause = c.code := rfl
@[simp] theorem enterFault_result (c : FaultCause) : (s.enterFault c).result = 0 := rfl
@[simp] theorem enterFault_pins (c : FaultCause) : (s.enterFault c).pins = s.pins := rfl
@[simp] theorem enterFault_chain (c : FaultCause) : (s.enterFault c).chain = s.chain := rfl
@[simp] theorem enterFault_trace (c : FaultCause) : (s.enterFault c).trace = s.trace := rfl
@[simp] theorem enterFault_inputs (c : FaultCause) : (s.enterFault c).inputs = s.inputs := rfl
@[simp] theorem enterFault_cfg (c : FaultCause) : (s.enterFault c).cfg = s.cfg := rfl

/-! the digit write (R73) -/

@[simp] theorem writeDigit_db (p : Fin 4) (k : Fin 17) : (s.writeDigit p k).db = s.db.set p.val (s.cfg.ct k ||| s.cfg.dst p) p.isLt := rfl
@[simp] theorem writeDigit_colon (p : Fin 4) (k : Fin 17) : (s.writeDigit p k).colon = s.colon := rfl
@[simp] theorem writeDigit_rb (p : Fin 4) (k : Fin 17) : (s.writeDigit p k).rb = s.rb := rfl
@[simp] theorem writeDigit_oe (p : Fin 4) (k : Fin 17) : (s.writeDigit p k).oe = s.oe := rfl
@[simp] theorem writeDigit_timers (p : Fin 4) (k : Fin 17) : (s.writeDigit p k).timers = s.timers := rfl
@[simp] theorem writeDigit_fLast (p : Fin 4) (k : Fin 17) : (s.writeDigit p k).fLast = s.fLast := rfl
@[simp] theorem writeDigit_fAcc (p : Fin 4) (k : Fin 17) : (s.writeDigit p k).fAcc = s.fAcc := rfl
@[simp] theorem writeDigit_fSp (p : Fin 4) (k : Fin 17) : (s.writeDigit p k).fSp = s.fSp := rfl
@[simp] theorem writeDigit_fState (p : Fin 4) (k : Fin 17) : (s.writeDigit p k).fState = s.fState := rfl
@[simp] theorem writeDigit_thLower (p : Fin 4) (k : Fin 17) : (s.writeDigit p k).thLower = s.thLower := rfl
@[simp] theorem writeDigit_thUpper (p : Fin 4) (k : Fin 17) : (s.writeDigit p k).thUpper = s.thUpper := rfl
@[simp] theorem writeDigit_thStopped (p : Fin 4) (k : Fin 17) : (s.writeDigit p k).thStopped = s.thStopped := rfl
@[simp] theorem writeDigit_fault (p : Fin 4) (k : Fin 17) : (s.writeDigit p k).fault = s.fault := rfl
@[simp] theorem writeDigit_cause (p : Fin 4) (k : Fin 17) : (s.writeDigit p k).cause = s.cause := rfl
@[simp] theorem writeDigit_result (p : Fin 4) (k : Fin 17) : (s.writeDigit p k).result = s.result := rfl
@[simp] theorem writeDigit_pins (p : Fin 4) (k : Fin 17) : (s.writeDigit p k).pins = s.pins := rfl
@[simp] theorem writeDigit_chain (p : Fin 4) (k : Fin 17) : (s.writeDigit p k).chain = s.chain := rfl
@[simp] theorem writeDigit_trace (p : Fin 4) (k : Fin 17) : (s.writeDigit p k).trace = s.trace := rfl
@[simp] theorem writeDigit_inputs (p : Fin 4) (k : Fin 17) : (s.writeDigit p k).inputs = s.inputs := rfl
@[simp] theorem writeDigit_cfg (p : Fin 4) (k : Fin 17) : (s.writeDigit p k).cfg = s.cfg := rfl

/-! MESSAGE's writes (R76) -/

@[simp] theorem writeMessage_colon (m : Fin 4) : (s.writeMessage m).colon = s.colon := rfl
@[simp] theorem writeMessage_rb (m : Fin 4) : (s.writeMessage m).rb = s.rb := rfl
@[simp] theorem writeMessage_oe (m : Fin 4) : (s.writeMessage m).oe = s.oe := rfl
@[simp] theorem writeMessage_timers (m : Fin 4) : (s.writeMessage m).timers = s.timers := rfl
@[simp] theorem writeMessage_fLast (m : Fin 4) : (s.writeMessage m).fLast = s.fLast := rfl
@[simp] theorem writeMessage_fAcc (m : Fin 4) : (s.writeMessage m).fAcc = s.fAcc := rfl
@[simp] theorem writeMessage_fSp (m : Fin 4) : (s.writeMessage m).fSp = s.fSp := rfl
@[simp] theorem writeMessage_fState (m : Fin 4) : (s.writeMessage m).fState = s.fState := rfl
@[simp] theorem writeMessage_thLower (m : Fin 4) : (s.writeMessage m).thLower = s.thLower := rfl
@[simp] theorem writeMessage_thUpper (m : Fin 4) : (s.writeMessage m).thUpper = s.thUpper := rfl
@[simp] theorem writeMessage_thStopped (m : Fin 4) : (s.writeMessage m).thStopped = s.thStopped := rfl
@[simp] theorem writeMessage_fault (m : Fin 4) : (s.writeMessage m).fault = s.fault := rfl
@[simp] theorem writeMessage_cause (m : Fin 4) : (s.writeMessage m).cause = s.cause := rfl
@[simp] theorem writeMessage_result (m : Fin 4) : (s.writeMessage m).result = s.result := rfl
@[simp] theorem writeMessage_pins (m : Fin 4) : (s.writeMessage m).pins = s.pins := rfl
@[simp] theorem writeMessage_chain (m : Fin 4) : (s.writeMessage m).chain = s.chain := rfl
@[simp] theorem writeMessage_trace (m : Fin 4) : (s.writeMessage m).trace = s.trace := rfl
@[simp] theorem writeMessage_inputs (m : Fin 4) : (s.writeMessage m).inputs = s.inputs := rfl
@[simp] theorem writeMessage_cfg (m : Fin 4) : (s.writeMessage m).cfg = s.cfg := rfl

/-! one half of the colon (R77) -/

@[simp] theorem setColonBit_db (b : Bool) (p : Fin 4) : (s.setColonBit b p).db = s.db.set p.val (colonWord s.cfg p b (s.db.get p)) p.isLt := rfl
@[simp] theorem setColonBit_colon (b : Bool) (p : Fin 4) : (s.setColonBit b p).colon = s.colon := rfl
@[simp] theorem setColonBit_rb (b : Bool) (p : Fin 4) : (s.setColonBit b p).rb = s.rb := rfl
@[simp] theorem setColonBit_oe (b : Bool) (p : Fin 4) : (s.setColonBit b p).oe = s.oe := rfl
@[simp] theorem setColonBit_timers (b : Bool) (p : Fin 4) : (s.setColonBit b p).timers = s.timers := rfl
@[simp] theorem setColonBit_fLast (b : Bool) (p : Fin 4) : (s.setColonBit b p).fLast = s.fLast := rfl
@[simp] theorem setColonBit_fAcc (b : Bool) (p : Fin 4) : (s.setColonBit b p).fAcc = s.fAcc := rfl
@[simp] theorem setColonBit_fSp (b : Bool) (p : Fin 4) : (s.setColonBit b p).fSp = s.fSp := rfl
@[simp] theorem setColonBit_fState (b : Bool) (p : Fin 4) : (s.setColonBit b p).fState = s.fState := rfl
@[simp] theorem setColonBit_thLower (b : Bool) (p : Fin 4) : (s.setColonBit b p).thLower = s.thLower := rfl
@[simp] theorem setColonBit_thUpper (b : Bool) (p : Fin 4) : (s.setColonBit b p).thUpper = s.thUpper := rfl
@[simp] theorem setColonBit_thStopped (b : Bool) (p : Fin 4) : (s.setColonBit b p).thStopped = s.thStopped := rfl
@[simp] theorem setColonBit_fault (b : Bool) (p : Fin 4) : (s.setColonBit b p).fault = s.fault := rfl
@[simp] theorem setColonBit_cause (b : Bool) (p : Fin 4) : (s.setColonBit b p).cause = s.cause := rfl
@[simp] theorem setColonBit_result (b : Bool) (p : Fin 4) : (s.setColonBit b p).result = s.result := rfl
@[simp] theorem setColonBit_pins (b : Bool) (p : Fin 4) : (s.setColonBit b p).pins = s.pins := rfl
@[simp] theorem setColonBit_chain (b : Bool) (p : Fin 4) : (s.setColonBit b p).chain = s.chain := rfl
@[simp] theorem setColonBit_trace (b : Bool) (p : Fin 4) : (s.setColonBit b p).trace = s.trace := rfl
@[simp] theorem setColonBit_inputs (b : Bool) (p : Fin 4) : (s.setColonBit b p).inputs = s.inputs := rfl
@[simp] theorem setColonBit_cfg (b : Bool) (p : Fin 4) : (s.setColonBit b p).cfg = s.cfg := rfl

/-! the colon (R77) -/

@[simp] theorem setColon_colon (b : Bool) : (s.setColon b).colon = b := rfl
@[simp] theorem setColon_rb (b : Bool) : (s.setColon b).rb = s.rb := rfl
@[simp] theorem setColon_oe (b : Bool) : (s.setColon b).oe = s.oe := rfl
@[simp] theorem setColon_timers (b : Bool) : (s.setColon b).timers = s.timers := rfl
@[simp] theorem setColon_fLast (b : Bool) : (s.setColon b).fLast = s.fLast := rfl
@[simp] theorem setColon_fAcc (b : Bool) : (s.setColon b).fAcc = s.fAcc := rfl
@[simp] theorem setColon_fSp (b : Bool) : (s.setColon b).fSp = s.fSp := rfl
@[simp] theorem setColon_fState (b : Bool) : (s.setColon b).fState = s.fState := rfl
@[simp] theorem setColon_thLower (b : Bool) : (s.setColon b).thLower = s.thLower := rfl
@[simp] theorem setColon_thUpper (b : Bool) : (s.setColon b).thUpper = s.thUpper := rfl
@[simp] theorem setColon_thStopped (b : Bool) : (s.setColon b).thStopped = s.thStopped := rfl
@[simp] theorem setColon_fault (b : Bool) : (s.setColon b).fault = s.fault := rfl
@[simp] theorem setColon_cause (b : Bool) : (s.setColon b).cause = s.cause := rfl
@[simp] theorem setColon_result (b : Bool) : (s.setColon b).result = s.result := rfl
@[simp] theorem setColon_pins (b : Bool) : (s.setColon b).pins = s.pins := rfl
@[simp] theorem setColon_chain (b : Bool) : (s.setColon b).chain = s.chain := rfl
@[simp] theorem setColon_trace (b : Bool) : (s.setColon b).trace = s.trace := rfl
@[simp] theorem setColon_inputs (b : Bool) : (s.setColon b).inputs = s.inputs := rfl
@[simp] theorem setColon_cfg (b : Bool) : (s.setColon b).cfg = s.cfg := rfl

/-! the masked relay update (R80) -/

@[simp] theorem relayUpdate_db (m v : Byte) : (s.relayUpdate m v).db = s.db := rfl
@[simp] theorem relayUpdate_colon (m v : Byte) : (s.relayUpdate m v).colon = s.colon := rfl
@[simp] theorem relayUpdate_rb (m v : Byte) : (s.relayUpdate m v).rb = maskedUpdate s.rb m v := rfl
@[simp] theorem relayUpdate_oe (m v : Byte) : (s.relayUpdate m v).oe = s.oe := rfl
@[simp] theorem relayUpdate_timers (m v : Byte) : (s.relayUpdate m v).timers = s.timers := rfl
@[simp] theorem relayUpdate_fLast (m v : Byte) : (s.relayUpdate m v).fLast = s.fLast := rfl
@[simp] theorem relayUpdate_fAcc (m v : Byte) : (s.relayUpdate m v).fAcc = s.fAcc := rfl
@[simp] theorem relayUpdate_fSp (m v : Byte) : (s.relayUpdate m v).fSp = s.fSp := rfl
@[simp] theorem relayUpdate_fState (m v : Byte) : (s.relayUpdate m v).fState = s.fState := rfl
@[simp] theorem relayUpdate_thLower (m v : Byte) : (s.relayUpdate m v).thLower = s.thLower := rfl
@[simp] theorem relayUpdate_thUpper (m v : Byte) : (s.relayUpdate m v).thUpper = s.thUpper := rfl
@[simp] theorem relayUpdate_thStopped (m v : Byte) : (s.relayUpdate m v).thStopped = s.thStopped := rfl
@[simp] theorem relayUpdate_fault (m v : Byte) : (s.relayUpdate m v).fault = s.fault := rfl
@[simp] theorem relayUpdate_cause (m v : Byte) : (s.relayUpdate m v).cause = s.cause := rfl
@[simp] theorem relayUpdate_result (m v : Byte) : (s.relayUpdate m v).result = s.result := rfl
@[simp] theorem relayUpdate_pins (m v : Byte) : (s.relayUpdate m v).pins = s.pins := rfl
@[simp] theorem relayUpdate_chain (m v : Byte) : (s.relayUpdate m v).chain = s.chain := rfl
@[simp] theorem relayUpdate_trace (m v : Byte) : (s.relayUpdate m v).trace = s.trace := rfl
@[simp] theorem relayUpdate_inputs (m v : Byte) : (s.relayUpdate m v).inputs = s.inputs := rfl
@[simp] theorem relayUpdate_cfg (m v : Byte) : (s.relayUpdate m v).cfg = s.cfg := rfl

/-! one pin write (R39) -/

@[simp] theorem drive_db (w : PinWrite) : (s.drive w).db = s.db := rfl
@[simp] theorem drive_colon (w : PinWrite) : (s.drive w).colon = s.colon := rfl
@[simp] theorem drive_rb (w : PinWrite) : (s.drive w).rb = s.rb := rfl
@[simp] theorem drive_oe (w : PinWrite) : (s.drive w).oe = oeAfter s.oe w := rfl
@[simp] theorem drive_timers (w : PinWrite) : (s.drive w).timers = s.timers := rfl
@[simp] theorem drive_fLast (w : PinWrite) : (s.drive w).fLast = s.fLast := rfl
@[simp] theorem drive_fAcc (w : PinWrite) : (s.drive w).fAcc = s.fAcc := rfl
@[simp] theorem drive_fSp (w : PinWrite) : (s.drive w).fSp = s.fSp := rfl
@[simp] theorem drive_fState (w : PinWrite) : (s.drive w).fState = s.fState := rfl
@[simp] theorem drive_thLower (w : PinWrite) : (s.drive w).thLower = s.thLower := rfl
@[simp] theorem drive_thUpper (w : PinWrite) : (s.drive w).thUpper = s.thUpper := rfl
@[simp] theorem drive_thStopped (w : PinWrite) : (s.drive w).thStopped = s.thStopped := rfl
@[simp] theorem drive_fault (w : PinWrite) : (s.drive w).fault = s.fault := rfl
@[simp] theorem drive_cause (w : PinWrite) : (s.drive w).cause = s.cause := rfl
@[simp] theorem drive_result (w : PinWrite) : (s.drive w).result = s.result := rfl
@[simp] theorem drive_pins (w : PinWrite) : (s.drive w).pins = s.pins.write w := rfl
@[simp] theorem drive_chain (w : PinWrite) : (s.drive w).chain = s.chain.onWrite s.pins w := rfl
@[simp] theorem drive_trace (w : PinWrite) : (s.drive w).trace = s.trace ++ [w] := rfl
@[simp] theorem drive_inputs (w : PinWrite) : (s.drive w).inputs = s.inputs := rfl
@[simp] theorem drive_cfg (w : PinWrite) : (s.drive w).cfg = s.cfg := rfl

/-! a timer written (R32) -/

@[simp] theorem setTimer_db (a : Byte) (t : Timer) : (s.setTimer a t).db = s.db := rfl
@[simp] theorem setTimer_colon (a : Byte) (t : Timer) : (s.setTimer a t).colon = s.colon := rfl
@[simp] theorem setTimer_rb (a : Byte) (t : Timer) : (s.setTimer a t).rb = s.rb := rfl
@[simp] theorem setTimer_oe (a : Byte) (t : Timer) : (s.setTimer a t).oe = s.oe := rfl
@[simp] theorem setTimer_timers (a : Byte) (t : Timer) : (s.setTimer a t).timers = s.timers.set a.toNat t := rfl
@[simp] theorem setTimer_fLast (a : Byte) (t : Timer) : (s.setTimer a t).fLast = s.fLast := rfl
@[simp] theorem setTimer_fAcc (a : Byte) (t : Timer) : (s.setTimer a t).fAcc = s.fAcc := rfl
@[simp] theorem setTimer_fSp (a : Byte) (t : Timer) : (s.setTimer a t).fSp = s.fSp := rfl
@[simp] theorem setTimer_fState (a : Byte) (t : Timer) : (s.setTimer a t).fState = s.fState := rfl
@[simp] theorem setTimer_thLower (a : Byte) (t : Timer) : (s.setTimer a t).thLower = s.thLower := rfl
@[simp] theorem setTimer_thUpper (a : Byte) (t : Timer) : (s.setTimer a t).thUpper = s.thUpper := rfl
@[simp] theorem setTimer_thStopped (a : Byte) (t : Timer) : (s.setTimer a t).thStopped = s.thStopped := rfl
@[simp] theorem setTimer_fault (a : Byte) (t : Timer) : (s.setTimer a t).fault = s.fault := rfl
@[simp] theorem setTimer_cause (a : Byte) (t : Timer) : (s.setTimer a t).cause = s.cause := rfl
@[simp] theorem setTimer_result (a : Byte) (t : Timer) : (s.setTimer a t).result = s.result := rfl
@[simp] theorem setTimer_pins (a : Byte) (t : Timer) : (s.setTimer a t).pins = s.pins := rfl
@[simp] theorem setTimer_chain (a : Byte) (t : Timer) : (s.setTimer a t).chain = s.chain := rfl
@[simp] theorem setTimer_trace (a : Byte) (t : Timer) : (s.setTimer a t).trace = s.trace := rfl
@[simp] theorem setTimer_inputs (a : Byte) (t : Timer) : (s.setTimer a t).inputs = s.inputs := rfl
@[simp] theorem setTimer_cfg (a : Byte) (t : Timer) : (s.setTimer a t).cfg = s.cfg := rfl

/-! a timer made Idle with its relays off (R99) -/

@[simp] theorem idleTimer_db (a : Byte) (t : Timer) : (s.idleTimer a t).db = s.db := rfl
@[simp] theorem idleTimer_colon (a : Byte) (t : Timer) : (s.idleTimer a t).colon = s.colon := rfl
@[simp] theorem idleTimer_rb (a : Byte) (t : Timer) : (s.idleTimer a t).rb = maskedUpdate s.rb t.relayMask relayOff := rfl
@[simp] theorem idleTimer_oe (a : Byte) (t : Timer) : (s.idleTimer a t).oe = s.oe := rfl
@[simp] theorem idleTimer_timers (a : Byte) (t : Timer) : (s.idleTimer a t).timers = s.timers.set a.toNat { t with active := false } := rfl
@[simp] theorem idleTimer_fLast (a : Byte) (t : Timer) : (s.idleTimer a t).fLast = s.fLast := rfl
@[simp] theorem idleTimer_fAcc (a : Byte) (t : Timer) : (s.idleTimer a t).fAcc = s.fAcc := rfl
@[simp] theorem idleTimer_fSp (a : Byte) (t : Timer) : (s.idleTimer a t).fSp = s.fSp := rfl
@[simp] theorem idleTimer_fState (a : Byte) (t : Timer) : (s.idleTimer a t).fState = s.fState := rfl
@[simp] theorem idleTimer_thLower (a : Byte) (t : Timer) : (s.idleTimer a t).thLower = s.thLower := rfl
@[simp] theorem idleTimer_thUpper (a : Byte) (t : Timer) : (s.idleTimer a t).thUpper = s.thUpper := rfl
@[simp] theorem idleTimer_thStopped (a : Byte) (t : Timer) : (s.idleTimer a t).thStopped = s.thStopped := rfl
@[simp] theorem idleTimer_fault (a : Byte) (t : Timer) : (s.idleTimer a t).fault = s.fault := rfl
@[simp] theorem idleTimer_cause (a : Byte) (t : Timer) : (s.idleTimer a t).cause = s.cause := rfl
@[simp] theorem idleTimer_result (a : Byte) (t : Timer) : (s.idleTimer a t).result = s.result := rfl
@[simp] theorem idleTimer_pins (a : Byte) (t : Timer) : (s.idleTimer a t).pins = s.pins := rfl
@[simp] theorem idleTimer_chain (a : Byte) (t : Timer) : (s.idleTimer a t).chain = s.chain := rfl
@[simp] theorem idleTimer_trace (a : Byte) (t : Timer) : (s.idleTimer a t).trace = s.trace := rfl
@[simp] theorem idleTimer_inputs (a : Byte) (t : Timer) : (s.idleTimer a t).inputs = s.inputs := rfl
@[simp] theorem idleTimer_cfg (a : Byte) (t : Timer) : (s.idleTimer a t).cfg = s.cfg := rfl

/-! the producer's update (R104) -/

@[simp] theorem sample_db (now : Word32) : (s.sample now).db = s.db := rfl
@[simp] theorem sample_colon (now : Word32) : (s.sample now).colon = s.colon := rfl
@[simp] theorem sample_rb (now : Word32) : (s.sample now).rb = s.rb := rfl
@[simp] theorem sample_oe (now : Word32) : (s.sample now).oe = s.oe := rfl
@[simp] theorem sample_timers (now : Word32) : (s.sample now).timers = s.timers := rfl
@[simp] theorem sample_fLast (now : Word32) : (s.sample now).fLast = now := rfl
@[simp] theorem sample_fAcc (now : Word32) : (s.sample now).fAcc = s.fAcc + elapsed now s.fLast - s.fSp := rfl
@[simp] theorem sample_fSp (now : Word32) : (s.sample now).fSp = (s.fAcc + elapsed now s.fLast - s.fSp) >>> s.cfg.smoothShift.val := rfl
@[simp] theorem sample_fState (now : Word32) : (s.sample now).fState = s.fState := rfl
@[simp] theorem sample_thLower (now : Word32) : (s.sample now).thLower = s.thLower := rfl
@[simp] theorem sample_thUpper (now : Word32) : (s.sample now).thUpper = s.thUpper := rfl
@[simp] theorem sample_thStopped (now : Word32) : (s.sample now).thStopped = s.thStopped := rfl
@[simp] theorem sample_fault (now : Word32) : (s.sample now).fault = s.fault := rfl
@[simp] theorem sample_cause (now : Word32) : (s.sample now).cause = s.cause := rfl
@[simp] theorem sample_result (now : Word32) : (s.sample now).result = s.result := rfl
@[simp] theorem sample_pins (now : Word32) : (s.sample now).pins = s.pins := rfl
@[simp] theorem sample_chain (now : Word32) : (s.sample now).chain = s.chain := rfl
@[simp] theorem sample_trace (now : Word32) : (s.sample now).trace = s.trace := rfl
@[simp] theorem sample_inputs (now : Word32) : (s.sample now).inputs = s.inputs := rfl
@[simp] theorem sample_cfg (now : Word32) : (s.sample now).cfg = s.cfg := rfl

/-! The reset event (R128). -/

@[simp] theorem resetBlock_db : s.resetBlock.db = (powerUp s.cfg s.chain).db := rfl
@[simp] theorem resetBlock_colon : s.resetBlock.colon = false := rfl
@[simp] theorem resetBlock_rb : s.resetBlock.rb = 0 := rfl
@[simp] theorem resetBlock_oe : s.resetBlock.oe = true := rfl
@[simp] theorem resetBlock_timers : s.resetBlock.timers = initialTimers s.cfg := rfl
@[simp] theorem resetBlock_fLast : s.resetBlock.fLast = 0 := rfl
@[simp] theorem resetBlock_fAcc : s.resetBlock.fAcc = 0 := rfl
@[simp] theorem resetBlock_fSp : s.resetBlock.fSp = 0 := rfl
@[simp] theorem resetBlock_fState : s.resetBlock.fState = .stopped := rfl
@[simp] theorem resetBlock_thLower : s.resetBlock.thLower = s.cfg.thLowerInit := rfl
@[simp] theorem resetBlock_thUpper : s.resetBlock.thUpper = s.cfg.thUpperInit := rfl
@[simp] theorem resetBlock_thStopped : s.resetBlock.thStopped = s.cfg.thStoppedInit := rfl
@[simp] theorem resetBlock_fault : s.resetBlock.fault = false := rfl
@[simp] theorem resetBlock_cause : s.resetBlock.cause = 0 := rfl
@[simp] theorem resetBlock_result : s.resetBlock.result = 0 := rfl
@[simp] theorem resetBlock_pins : s.resetBlock.pins = ⟨false, false, true⟩ := rfl
@[simp] theorem resetBlock_chain : s.resetBlock.chain = s.chain := rfl
@[simp] theorem resetBlock_trace : s.resetBlock.trace = s.trace ++ [.data false, .clk false, .latch true, .oeN true] := rfl
@[simp] theorem resetBlock_inputs : s.resetBlock.inputs = s.inputs := rfl
@[simp] theorem resetBlock_cfg : s.resetBlock.cfg = s.cfg := rfl

/-! One threshold redefined (R109). -/

@[simp] theorem setThreshold_db (sel : ThresholdSel) (v : Word32) :
    (s.setThreshold sel v).db = s.db := by cases sel <;> rfl
@[simp] theorem setThreshold_colon (sel : ThresholdSel) (v : Word32) :
    (s.setThreshold sel v).colon = s.colon := by cases sel <;> rfl
@[simp] theorem setThreshold_rb (sel : ThresholdSel) (v : Word32) :
    (s.setThreshold sel v).rb = s.rb := by cases sel <;> rfl
@[simp] theorem setThreshold_oe (sel : ThresholdSel) (v : Word32) :
    (s.setThreshold sel v).oe = s.oe := by cases sel <;> rfl
@[simp] theorem setThreshold_timers (sel : ThresholdSel) (v : Word32) :
    (s.setThreshold sel v).timers = s.timers := by cases sel <;> rfl
@[simp] theorem setThreshold_fLast (sel : ThresholdSel) (v : Word32) :
    (s.setThreshold sel v).fLast = s.fLast := by cases sel <;> rfl
@[simp] theorem setThreshold_fAcc (sel : ThresholdSel) (v : Word32) :
    (s.setThreshold sel v).fAcc = s.fAcc := by cases sel <;> rfl
@[simp] theorem setThreshold_fSp (sel : ThresholdSel) (v : Word32) :
    (s.setThreshold sel v).fSp = s.fSp := by cases sel <;> rfl
@[simp] theorem setThreshold_fState (sel : ThresholdSel) (v : Word32) :
    (s.setThreshold sel v).fState = s.fState := by cases sel <;> rfl
@[simp] theorem setThreshold_fault (sel : ThresholdSel) (v : Word32) :
    (s.setThreshold sel v).fault = s.fault := by cases sel <;> rfl
@[simp] theorem setThreshold_cause (sel : ThresholdSel) (v : Word32) :
    (s.setThreshold sel v).cause = s.cause := by cases sel <;> rfl
@[simp] theorem setThreshold_result (sel : ThresholdSel) (v : Word32) :
    (s.setThreshold sel v).result = s.result := by cases sel <;> rfl
@[simp] theorem setThreshold_pins (sel : ThresholdSel) (v : Word32) :
    (s.setThreshold sel v).pins = s.pins := by cases sel <;> rfl
@[simp] theorem setThreshold_chain (sel : ThresholdSel) (v : Word32) :
    (s.setThreshold sel v).chain = s.chain := by cases sel <;> rfl
@[simp] theorem setThreshold_trace (sel : ThresholdSel) (v : Word32) :
    (s.setThreshold sel v).trace = s.trace := by cases sel <;> rfl
@[simp] theorem setThreshold_inputs (sel : ThresholdSel) (v : Word32) :
    (s.setThreshold sel v).inputs = s.inputs := by cases sel <;> rfl
@[simp] theorem setThreshold_cfg (sel : ThresholdSel) (v : Word32) :
    (s.setThreshold sel v).cfg = s.cfg := by cases sel <;> rfl

end State

end Sys2Proof.Machine
end

