-- ==== Sys2Proof/Laws/Checks.lean ====
section
/-! SUPPORT. The checks before a command: what `checked` and `onTimer` can answer, and what the reserved
bits of each command are in terms of its fields. -/

namespace Sys2Proof

section Masks

theorem and_full8 (x : Byte) : x &&& 255#8 = 0#8 ↔ x = 0#8 := by
  rw [show 255#8 = BitVec.allOnes 8 from rfl, BitVec.and_allOnes]

theorem and_full32 (x : Word32) : x &&& 4294967295#32 = 0#32 ↔ x = 0#32 := by
  rw [show 4294967295#32 = BitVec.allOnes 32 from rfl, BitVec.and_allOnes]

/-- A boolean field (R62): bits 7:1 are 0 exactly for 0 and 1. -/
theorem and_bool_field : ∀ x : Byte, x &&& 254#8 = 0#8 ↔ x = 0#8 ∨ x = 1#8 := by decide

/-- T[31:16] of NUMBER is 0 exactly for a 16-bit value (R67). -/
theorem and_high_half (x : Word32) : x &&& 4294901760#32 = 0#32 ↔ x.toNat < 65536 := by
  rw [← BitVec.toNat_inj, BitVec.toNat_and]
  simp only [BitVec.toNat_ofNat, Nat.reducePow, Nat.reduceMod]
  constructor
  · intro h
    have h2 : (x.toNat &&& 4294901760) >>> 16 = 0 := by rw [h]; rfl
    have hx := x.isLt
    rw [Nat.shiftRight_and_distrib, show 4294901760 >>> 16 = 2 ^ 16 - 1 from rfl,
      Nat.and_two_pow_sub_one_eq_mod, Nat.shiftRight_eq_div_pow] at h2
    omega
  · intro h
    apply Nat.eq_of_testBit_eq
    intro i
    rw [Nat.testBit_and, Nat.zero_testBit, Bool.and_eq_false_iff]
    by_cases hi : i < 16
    · right; interval_cases i <;> decide
    · left
      exact Nat.testBit_lt_two_pow (lt_of_lt_of_le (show x.toNat < 2 ^ 16 from h)
        (Nat.pow_le_pow_right Nat.two_pos (not_lt.mp hi)))

end Masks

/-! The reserved bits of each command in terms of its fields (R67). -/

namespace Instr

variable (f : Fields)

theorem reservedClear_digit : (digit f).reservedClear = true ↔ f.c = 0 ∧ f.t = 0 := by
  simp [reservedClear, fields, reservedMask, Fields.clearOf, and_full8, and_full32]

theorem reservedClear_number :
    (number f).reservedClear = true ↔ f.b = 0 ∧ f.c = 0 ∧ f.t.toNat < 65536 := by
  simp [reservedClear, fields, reservedMask, Fields.clearOf, and_full8, and_high_half, and_assoc]

theorem reservedClear_message :
    (message f).reservedClear = true ↔ f.b = 0 ∧ f.c = 0 ∧ f.t = 0 := by
  simp [reservedClear, fields, reservedMask, Fields.clearOf, and_full8, and_full32, and_assoc]

theorem reservedClear_colon :
    (colon f).reservedClear = true ↔ (f.a = 0 ∨ f.a = 1) ∧ f.b = 0 ∧ f.c = 0 ∧ f.t = 0 := by
  simp [reservedClear, fields, reservedMask, Fields.clearOf, and_full8, and_full32, and_bool_field,
    and_assoc]

theorem reservedClear_tcolon :
    (tcolon f).reservedClear = true ↔ f.a = 0 ∧ f.b = 0 ∧ f.c = 0 ∧ f.t = 0 := by
  simp [reservedClear, fields, reservedMask, Fields.clearOf, Fields.allOnes, and_full8, and_full32,
    and_assoc]

theorem reservedClear_dbread :
    (dbread f).reservedClear = true ↔ f.b = 0 ∧ f.c = 0 ∧ f.t = 0 := by
  simp [reservedClear, fields, reservedMask, Fields.clearOf, and_full8, and_full32, and_assoc]

theorem reservedClear_rset : (rset f).reservedClear = true ↔ f.c = 0 ∧ f.t = 0 := by
  simp [reservedClear, fields, reservedMask, Fields.clearOf, and_full8, and_full32]

theorem reservedClear_rsetn :
    (rsetn f).reservedClear = true ↔ (f.b = 0 ∨ f.b = 1) ∧ f.c = 0 ∧ f.t = 0 := by
  simp [reservedClear, fields, reservedMask, Fields.clearOf, and_full8, and_full32, and_bool_field,
    and_assoc]

theorem reservedClear_rget : (rget f).reservedClear = true ↔ f.b = 0 ∧ f.c = 0 ∧ f.t = 0 := by
  simp [reservedClear, fields, reservedMask, Fields.clearOf, and_full8, and_full32, and_assoc]

theorem reservedClear_rison : (rison f).reservedClear = true ↔ f.b = 0 ∧ f.c = 0 ∧ f.t = 0 := by
  simp [reservedClear, fields, reservedMask, Fields.clearOf, and_full8, and_full32, and_assoc]

theorem reservedClear_rmask : (rmask f).reservedClear = true ↔ f.b = 0 ∧ f.c = 0 ∧ f.t = 0 := by
  simp [reservedClear, fields, reservedMask, Fields.clearOf, and_full8, and_full32, and_assoc]

theorem reservedClear_renable :
    (renable f).reservedClear = true ↔ f.a = 0 ∧ f.b = 0 ∧ f.c = 0 ∧ f.t = 0 := by
  simp [reservedClear, fields, reservedMask, Fields.clearOf, Fields.allOnes, and_full8, and_full32,
    and_assoc]

theorem reservedClear_rdisable :
    (rdisable f).reservedClear = true ↔ f.a = 0 ∧ f.b = 0 ∧ f.c = 0 ∧ f.t = 0 := by
  simp [reservedClear, fields, reservedMask, Fields.clearOf, Fields.allOnes, and_full8, and_full32,
    and_assoc]

theorem reservedClear_refresh :
    (refresh f).reservedClear = true ↔ f.a = 0 ∧ f.b = 0 ∧ f.c = 0 ∧ f.t = 0 := by
  simp [reservedClear, fields, reservedMask, Fields.clearOf, Fields.allOnes, and_full8, and_full32,
    and_assoc]

theorem reservedClear_tcfg : (tcfg f).reservedClear = true ↔ f.c = 0 := by
  simp [reservedClear, fields, reservedMask, Fields.clearOf, and_full8]

theorem reservedClear_tstart : (tstart f).reservedClear = true ↔ f.b = 0 ∧ f.c = 0 := by
  simp [reservedClear, fields, reservedMask, Fields.clearOf, and_full8]

theorem reservedClear_ttick : (ttick f).reservedClear = true ↔ f.b = 0 ∧ f.c = 0 := by
  simp [reservedClear, fields, reservedMask, Fields.clearOf, and_full8]

theorem reservedClear_tstop : (tstop f).reservedClear = true ↔ f.b = 0 ∧ f.c = 0 ∧ f.t = 0 := by
  simp [reservedClear, fields, reservedMask, Fields.clearOf, and_full8, and_full32, and_assoc]

theorem reservedClear_trem : (trem f).reservedClear = true ↔ f.b = 0 ∧ f.c = 0 := by
  simp [reservedClear, fields, reservedMask, Fields.clearOf, and_full8]

theorem reservedClear_tactive :
    (tactive f).reservedClear = true ↔ f.b = 0 ∧ f.c = 0 ∧ f.t = 0 := by
  simp [reservedClear, fields, reservedMask, Fields.clearOf, and_full8, and_full32, and_assoc]

theorem reservedClear_ftick :
    (ftick f).reservedClear = true ↔ f.a = 0 ∧ f.b = 0 ∧ f.c = 0 := by
  simp [reservedClear, fields, reservedMask, Fields.clearOf, and_full8, and_assoc]

theorem reservedClear_fsetth : (fsetth f).reservedClear = true ↔ f.b = 0 ∧ f.c = 0 := by
  simp [reservedClear, fields, reservedMask, Fields.clearOf, and_full8]

theorem reservedClear_fread : (fread f).reservedClear = true ↔ f.b = 0 ∧ f.c = 0 ∧ f.t = 0 := by
  simp [reservedClear, fields, reservedMask, Fields.clearOf, and_full8, and_full32, and_assoc]

theorem reservedClear_status :
    (status f).reservedClear = true ↔ f.a = 0 ∧ f.b = 0 ∧ f.c = 0 ∧ f.t = 0 := by
  simp [reservedClear, fields, reservedMask, Fields.clearOf, Fields.allOnes, and_full8, and_full32,
    and_assoc]

end Instr

namespace Machine

/-- An outcome answers one next state. -/
theorem next_inj {s t : State} : ((.next s : Out) = .next t) ↔ s = t :=
  ⟨fun h => by cases h; rfl, fun h => by rw [h]⟩

section Checked

variable {i : Instr} {s t : State} {body : Out}

theorem checked_halted (h : s.fault = true) : checked i s body = .next (s.setResult 0) := by
  simp [checked, h, ignored]

theorem checked_reserved (h : s.fault = false) (hr : i.reservedClear = false) :
    checked i s body = .next (s.enterFault .reservedField) := by
  simp [checked, h, hr, raiseFault]

theorem checked_clear (h : s.fault = false) (hr : i.reservedClear = true) :
    checked i s body = body := by
  simp [checked, h, hr]

/-- All that the checks can answer (R114): the halted machine ignores, a reserved bit faults, and only then
the command's own rule is reached. -/
theorem checked_next (h : checked i s body = .next t) :
    (s.fault = true ∧ t = s.setResult 0) ∨
    (s.fault = false ∧ i.reservedClear = false ∧ t = s.enterFault .reservedField) ∨
    (s.fault = false ∧ i.reservedClear = true ∧ body = .next t) := by
  cases hf : s.fault with
  | true => rw [checked_halted hf] at h; cases h; exact .inl ⟨rfl, rfl⟩
  | false =>
    cases hr : i.reservedClear with
    | true => rw [checked_clear hf hr] at h; exact .inr (.inr ⟨rfl, rfl, h⟩)
    | false => rw [checked_reserved hf hr] at h; cases h; exact .inr (.inl ⟨rfl, rfl, rfl⟩)

/-- All that a timer command's checks can answer (R114): as `checked_next`, and an id outside the pool
faults. -/
theorem onTimer_next {body : Timer → Out} (h : onTimer i s body = .next t) :
    (s.fault = true ∧ t = s.setResult 0) ∨
    (s.fault = false ∧ i.reservedClear = false ∧ t = s.enterFault .reservedField) ∨
    (s.fault = false ∧ i.reservedClear = true ∧ s.timers[i.fields.a.toNat]? = none ∧
      t = s.enterFault .timerIdRange) ∨
    (∃ tm, s.fault = false ∧ i.reservedClear = true ∧
      s.timers[i.fields.a.toNat]? = some tm ∧ body tm = .next t) := by
  rcases checked_next h with h | h | ⟨hf, hr, h⟩
  · exact .inl h
  · exact .inr (.inl h)
  · rw [State.timer?] at h
    cases ht : s.timers[i.fields.a.toNat]? with
    | none => rw [ht] at h; cases h; exact .inr (.inr (.inl ⟨hf, hr, rfl, rfl⟩))
    | some tm => rw [ht] at h; exact .inr (.inr (.inr ⟨tm, hf, hr, rfl, h⟩))

theorem onTimer_some {body : Timer → Out} {tm : Timer} (hf : s.fault = false)
    (hr : i.reservedClear = true) (ht : s.timers[i.fields.a.toNat]? = some tm) :
    onTimer i s body = body tm := by
  simp [onTimer, checked, hf, hr, State.timer?, ht]

end Checked

/-! The operand readers (R62): each answers some exactly in range, and the value itself. -/

theorem position?_some {a : Byte} {p : Fin 4} : position? a = some p ↔ a.toNat = p.val := by
  unfold position?
  split
  · rw [Option.some_inj, Fin.ext_iff]
  · constructor
    · intro h; cases h
    · intro h; have := p.isLt; omega

theorem position?_none {a : Byte} : position? a = none ↔ 4 ≤ a.toNat := by
  unfold position?; split <;> simp <;> omega

theorem symbol?_some {b : Byte} {k : Fin 17} : symbol? b = some k ↔ b.toNat = k.val := by
  unfold symbol?
  split
  · rw [Option.some_inj, Fin.ext_iff]
  · constructor
    · intro h; cases h
    · intro h; have := k.isLt; omega

theorem symbol?_none {b : Byte} : symbol? b = none ↔ 17 ≤ b.toNat := by
  unfold symbol?; split <;> simp <;> omega

theorem message?_some {a : Byte} {m : Fin 4} : message? a = some m ↔ a.toNat = m.val := by
  unfold message?
  split
  · rw [Option.some_inj, Fin.ext_iff]
  · constructor
    · intro h; cases h
    · intro h; have := m.isLt; omega

theorem message?_none {a : Byte} : message? a = none ↔ 4 ≤ a.toNat := by
  unfold message?; split <;> simp <;> omega

theorem digitCount?_some {a : Byte} {d : Nat} :
    digitCount? a = some d ↔ a.toNat = d ∧ 1 ≤ d ∧ d ≤ 4 := by
  unfold digitCount?; split <;> simp <;> omega

theorem digitCount?_none {a : Byte} : digitCount? a = none ↔ a.toNat = 0 ∨ 4 < a.toNat := by
  unfold digitCount?; split <;> simp <;> omega

theorem thresholdSel?_none {a : Byte} : thresholdSel? a = none ↔ 3 ≤ a.toNat := by
  unfold thresholdSel?; generalize a.toNat = n
  rcases n with _ | _ | _ | n <;> simp

theorem readSel?_none {a : Byte} : readSel? a = none ↔ 7 ≤ a.toNat := by
  unfold readSel?; generalize a.toNat = n
  rcases n with _ | _ | _ | _ | _ | _ | _ | n <;> simp

end Machine

end Sys2Proof
end

