-- ==== Sys2Proof/Laws/PerInstr.lean ====
section
/-! SUPPORT. The statements made of every command, one lemma per constructor: the reserved bits of the
command's word are the bits of its mask, laid out in a word as the fields are (30_encoding.md R61, R67);
the high nibble of its opcode names its family (R65). -/

namespace Sys2Proof.Laws

/-- Two bit strings joined are 0 exactly when both are. -/
theorem append_eq_zero {m n : Nat} (x : BitVec m) (y : BitVec n) :
    x ++ y = 0#(m + n) ↔ x = 0#m ∧ y = 0#n := by
  simp [← BitVec.toNat_inj, BitVec.toNat_append, Nat.or_eq_zero_iff]

/-- The word of a command meets a mask's word in no bit exactly when its fields meet the mask in none. -/
theorem encode_and_mask (i : Instr) (m : Fields) :
    encode i &&& assembleWord 0 m = 0#64 ↔ i.fields.clearOf m = true := by
  have split (o a b c : Byte) (t : Word32) :
      (o ++ a ++ b ++ c ++ t : CommandWord) = 0#64 ↔
        (((o = 0#8 ∧ a = 0#8) ∧ b = 0#8) ∧ c = 0#8) ∧ t = 0#32 := by
    rw [show (0#64) = 0#(8 + 8 + 8 + 8 + 32) from rfl, append_eq_zero,
      append_eq_zero, append_eq_zero, append_eq_zero]
  rw [encode, assembleWord, assembleWord, BitVec.and_append, BitVec.and_append, BitVec.and_append,
    BitVec.and_append, split]
  simp [Fields.clearOf]

namespace ReservedBits

/-- A command's word has a 1 in a reserved bit exactly when the command's fields do (R67). -/
def Statement (i : Instr) : Prop :=
  encode i &&& assembleWord 0 i.reservedMask = 0#64 ↔ i.reservedClear = true

theorem digit (f : Fields) : Statement (.digit f) := encode_and_mask _ _
theorem number (f : Fields) : Statement (.number f) := encode_and_mask _ _
theorem message (f : Fields) : Statement (.message f) := encode_and_mask _ _
theorem colon (f : Fields) : Statement (.colon f) := encode_and_mask _ _
theorem tcolon (f : Fields) : Statement (.tcolon f) := encode_and_mask _ _
theorem dbread (f : Fields) : Statement (.dbread f) := encode_and_mask _ _
theorem rset (f : Fields) : Statement (.rset f) := encode_and_mask _ _
theorem rsetn (f : Fields) : Statement (.rsetn f) := encode_and_mask _ _
theorem rget (f : Fields) : Statement (.rget f) := encode_and_mask _ _
theorem rison (f : Fields) : Statement (.rison f) := encode_and_mask _ _
theorem rmask (f : Fields) : Statement (.rmask f) := encode_and_mask _ _
theorem renable (f : Fields) : Statement (.renable f) := encode_and_mask _ _
theorem rdisable (f : Fields) : Statement (.rdisable f) := encode_and_mask _ _
theorem refresh (f : Fields) : Statement (.refresh f) := encode_and_mask _ _
theorem tcfg (f : Fields) : Statement (.tcfg f) := encode_and_mask _ _
theorem tstart (f : Fields) : Statement (.tstart f) := encode_and_mask _ _
theorem ttick (f : Fields) : Statement (.ttick f) := encode_and_mask _ _
theorem tstop (f : Fields) : Statement (.tstop f) := encode_and_mask _ _
theorem trem (f : Fields) : Statement (.trem f) := encode_and_mask _ _
theorem tactive (f : Fields) : Statement (.tactive f) := encode_and_mask _ _
theorem fsample (f : Fields) : Statement (.fsample f) := encode_and_mask _ _
theorem ftick (f : Fields) : Statement (.ftick f) := encode_and_mask _ _
theorem fsetth (f : Fields) : Statement (.fsetth f) := encode_and_mask _ _
theorem fread (f : Fields) : Statement (.fread f) := encode_and_mask _ _
theorem status (f : Fields) : Statement (.status f) := encode_and_mask _ _

end ReservedBits

namespace Families

/-- The high nibble of a command's opcode names its family (R65). -/
def Statement (i : Instr) : Prop := familyOfNibble (i.opcode.extractLsb' 4 4) = some i.family

theorem digit (f : Fields) : Statement (.digit f) := by
  simp only [Statement, Instr.opcode, Instr.family]; decide
theorem number (f : Fields) : Statement (.number f) := by
  simp only [Statement, Instr.opcode, Instr.family]; decide
theorem message (f : Fields) : Statement (.message f) := by
  simp only [Statement, Instr.opcode, Instr.family]; decide
theorem colon (f : Fields) : Statement (.colon f) := by
  simp only [Statement, Instr.opcode, Instr.family]; decide
theorem tcolon (f : Fields) : Statement (.tcolon f) := by
  simp only [Statement, Instr.opcode, Instr.family]; decide
theorem dbread (f : Fields) : Statement (.dbread f) := by
  simp only [Statement, Instr.opcode, Instr.family]; decide
theorem rset (f : Fields) : Statement (.rset f) := by
  simp only [Statement, Instr.opcode, Instr.family]; decide
theorem rsetn (f : Fields) : Statement (.rsetn f) := by
  simp only [Statement, Instr.opcode, Instr.family]; decide
theorem rget (f : Fields) : Statement (.rget f) := by
  simp only [Statement, Instr.opcode, Instr.family]; decide
theorem rison (f : Fields) : Statement (.rison f) := by
  simp only [Statement, Instr.opcode, Instr.family]; decide
theorem rmask (f : Fields) : Statement (.rmask f) := by
  simp only [Statement, Instr.opcode, Instr.family]; decide
theorem renable (f : Fields) : Statement (.renable f) := by
  simp only [Statement, Instr.opcode, Instr.family]; decide
theorem rdisable (f : Fields) : Statement (.rdisable f) := by
  simp only [Statement, Instr.opcode, Instr.family]; decide
theorem refresh (f : Fields) : Statement (.refresh f) := by
  simp only [Statement, Instr.opcode, Instr.family]; decide
theorem tcfg (f : Fields) : Statement (.tcfg f) := by
  simp only [Statement, Instr.opcode, Instr.family]; decide
theorem tstart (f : Fields) : Statement (.tstart f) := by
  simp only [Statement, Instr.opcode, Instr.family]; decide
theorem ttick (f : Fields) : Statement (.ttick f) := by
  simp only [Statement, Instr.opcode, Instr.family]; decide
theorem tstop (f : Fields) : Statement (.tstop f) := by
  simp only [Statement, Instr.opcode, Instr.family]; decide
theorem trem (f : Fields) : Statement (.trem f) := by
  simp only [Statement, Instr.opcode, Instr.family]; decide
theorem tactive (f : Fields) : Statement (.tactive f) := by
  simp only [Statement, Instr.opcode, Instr.family]; decide
theorem fsample (f : Fields) : Statement (.fsample f) := by
  simp only [Statement, Instr.opcode, Instr.family]; decide
theorem ftick (f : Fields) : Statement (.ftick f) := by
  simp only [Statement, Instr.opcode, Instr.family]; decide
theorem fsetth (f : Fields) : Statement (.fsetth f) := by
  simp only [Statement, Instr.opcode, Instr.family]; decide
theorem fread (f : Fields) : Statement (.fread f) := by
  simp only [Statement, Instr.opcode, Instr.family]; decide
theorem status (f : Fields) : Statement (.status f) := by
  simp only [Statement, Instr.opcode, Instr.family]; decide

end Families

end Sys2Proof.Laws
end

