-- ==== Sys2Proof/Laws/Updates.lean ====
section
/-! SUPPORT. What the updates built by a fold can do: the digit writes of NUMBER and MESSAGE, the colon, and
the pin writes of a frame and of a refresh. Each lemma says once which fields the update may touch and what
it leaves in DB, so that a proof cites it and does not unfold the fold. -/

namespace Sys2Proof.Machine

/-- Reading one element after writing one. -/
theorem get_set {α : Type} (v : Vector α 4) (p q : Fin 4) (x : α) :
    (v.set p.val x p.isLt).get q = if q = p then x else v.get q := by
  have h := Vector.getElem_set (xs := v) (x := x) p.isLt (j := q.val) q.isLt
  have e : ∀ w : Vector α 4, w.get q = w[q.val] := fun _ => rfl
  rw [e, e, h]
  simp only [Fin.ext_iff, eq_comm]

/-- Every position is in the list of positions. -/
theorem mem_positions (q : Fin 4) : q ∈ positions := by revert q; decide

namespace State

/-- What a digit write leaves in DB (R73). -/
theorem writeDigit_get (p q : Fin 4) (k : Fin 17) (s : State) :
    (s.writeDigit p k).db.get q = if q = p then s.cfg.ct k ||| s.cfg.dst p else s.db.get q :=
  get_set s.db p q _

/-- A list of digit writes leaves at a listed position the entry of its symbol, and keeps the others (R73). -/
theorem foldl_writeDigit_get (sym : Fin 4 → Fin 17) (q : Fin 4) (l : List (Fin 4)) (s : State) :
    (l.foldl (fun u p => u.writeDigit p (sym p)) s).db.get q =
      if q ∈ l then s.cfg.ct (sym q) ||| s.cfg.dst q else s.db.get q := by
  induction l generalizing s with
  | nil => simp
  | cons p l ih =>
    rw [List.foldl_cons, ih, writeDigit_get]
    by_cases hl : q ∈ l
    · simp [hl]
    · by_cases hp : q = p
      · subst hp; simp [hl]
      · simp [hl, hp]

/-- What NUMBER's writes leave in DB (R75). -/
theorem writeNumber_get (d v : Nat) (q : Fin 4) (s : State) :
    (s.writeNumber d v).db.get q =
      if q.val < d then s.cfg.ct (digitSymbol v d q) ||| s.cfg.dst q else s.db.get q := by
  have h : q ∈ positions.take d ↔ q.val < d := by
    rcases d with _ | _ | _ | _ | d
    · simp
    · revert q; decide
    · revert q; decide
    · revert q; decide
    · have hd : positions.take (d + 4) = positions := List.take_of_length_le (by simp [positions])
      have := q.isLt
      simp only [hd, mem_positions, true_iff]; omega
  rw [writeNumber, foldl_writeDigit_get]
  simp only [h]

/-- What MESSAGE's writes leave in DB (R76). -/
theorem writeMessage_get (m q : Fin 4) (s : State) :
    (s.writeMessage m).db.get q = s.cfg.ct ((s.cfg.msg.get m).get q) ||| s.cfg.dst q := by
  have h := foldl_writeDigit_get (fun p => (s.cfg.msg.get m).get p) q positions s
  rw [if_pos (mem_positions q)] at h
  exact h

/-- What the colon leaves in DB (R77). -/
theorem setColon_get (lit : Bool) (q : Fin 4) (s : State) :
    (s.setColon lit).db.get q =
      if q = 1 ∨ q = 2 then colonWord s.cfg q lit (s.db.get q) else s.db.get q := by
  show ([(1 : Fin 4), 2].foldl (State.setColonBit lit) s).db.get q = _
  simp only [List.foldl_cons, List.foldl_nil, setColonBit, get_set]
  by_cases h1 : q = 1
  · subst h1; simp
  · by_cases h2 : q = 2
    · subst h2; simp
    · simp [h1, h2]

/-- A list of digit writes changes DB only. -/
theorem foldl_writeDigit_eq (sym : Fin 4 → Fin 17) (l : List (Fin 4)) (s : State) :
    l.foldl (fun u p => u.writeDigit p (sym p)) s =
      { s with db := (l.foldl (fun u p => u.writeDigit p (sym p)) s).db } := by
  induction l generalizing s with
  | nil => rfl
  | cons p l ih => rw [List.foldl_cons, ih]; rfl

/-- NUMBER's writes change DB only (R75). -/
theorem writeNumber_eq (d v : Nat) (s : State) :
    s.writeNumber d v = { s with db := (s.writeNumber d v).db } :=
  foldl_writeDigit_eq (digitSymbol v d) (positions.take d) s

@[simp] theorem writeNumber_colon (d v : Nat) (s : State) : (s.writeNumber d v).colon = s.colon := by
  rw [writeNumber_eq]
@[simp] theorem writeNumber_rb (d v : Nat) (s : State) : (s.writeNumber d v).rb = s.rb := by
  rw [writeNumber_eq]
@[simp] theorem writeNumber_oe (d v : Nat) (s : State) : (s.writeNumber d v).oe = s.oe := by
  rw [writeNumber_eq]
@[simp] theorem writeNumber_timers (d v : Nat) (s : State) : (s.writeNumber d v).timers = s.timers := by
  rw [writeNumber_eq]
@[simp] theorem writeNumber_fLast (d v : Nat) (s : State) : (s.writeNumber d v).fLast = s.fLast := by
  rw [writeNumber_eq]
@[simp] theorem writeNumber_fAcc (d v : Nat) (s : State) : (s.writeNumber d v).fAcc = s.fAcc := by
  rw [writeNumber_eq]
@[simp] theorem writeNumber_fSp (d v : Nat) (s : State) : (s.writeNumber d v).fSp = s.fSp := by
  rw [writeNumber_eq]
@[simp] theorem writeNumber_fState (d v : Nat) (s : State) : (s.writeNumber d v).fState = s.fState := by
  rw [writeNumber_eq]
@[simp] theorem writeNumber_thLower (d v : Nat) (s : State) : (s.writeNumber d v).thLower = s.thLower := by
  rw [writeNumber_eq]
@[simp] theorem writeNumber_thUpper (d v : Nat) (s : State) : (s.writeNumber d v).thUpper = s.thUpper := by
  rw [writeNumber_eq]
@[simp] theorem writeNumber_thStopped (d v : Nat) (s : State) : (s.writeNumber d v).thStopped = s.thStopped := by
  rw [writeNumber_eq]
@[simp] theorem writeNumber_fault (d v : Nat) (s : State) : (s.writeNumber d v).fault = s.fault := by
  rw [writeNumber_eq]
@[simp] theorem writeNumber_cause (d v : Nat) (s : State) : (s.writeNumber d v).cause = s.cause := by
  rw [writeNumber_eq]
@[simp] theorem writeNumber_result (d v : Nat) (s : State) : (s.writeNumber d v).result = s.result := by
  rw [writeNumber_eq]
@[simp] theorem writeNumber_pins (d v : Nat) (s : State) : (s.writeNumber d v).pins = s.pins := by
  rw [writeNumber_eq]
@[simp] theorem writeNumber_chain (d v : Nat) (s : State) : (s.writeNumber d v).chain = s.chain := by
  rw [writeNumber_eq]
@[simp] theorem writeNumber_trace (d v : Nat) (s : State) : (s.writeNumber d v).trace = s.trace := by
  rw [writeNumber_eq]
@[simp] theorem writeNumber_inputs (d v : Nat) (s : State) : (s.writeNumber d v).inputs = s.inputs := by
  rw [writeNumber_eq]
@[simp] theorem writeNumber_cfg (d v : Nat) (s : State) : (s.writeNumber d v).cfg = s.cfg := by
  rw [writeNumber_eq]

/-- MESSAGE's writes change DB only (R76). -/
theorem writeMessage_eq (m : Fin 4) (s : State) :
    s.writeMessage m = { s with db := (s.writeMessage m).db } := rfl

/-- The colon changes DB and COLON only (R77). -/
theorem setColon_eq (b : Bool) (s : State) :
    s.setColon b = { s with db := (s.setColon b).db, colon := b } := rfl

/-- What a timer write leaves in the pool (R32): the timer named, when the pool has it, and no other. -/
theorem setTimer_get (a : Byte) (tm : Timer) (s : State) (j : Nat) :
    (s.setTimer a tm).timers[j]? =
      if a.toNat = j then (if a.toNat < s.timers.length then some tm else none) else s.timers[j]? :=
  List.getElem?_set

/-- A timer write that keeps a part of the timer it replaces keeps that part throughout the pool (R32). -/
theorem setTimer_map {α : Type} (part : Timer → α) {a : Byte} {tm old : Timer} {s : State}
    (hold : s.timers[a.toNat]? = some old) (hpart : part tm = part old) (j : Nat) :
    ((s.setTimer a tm).timers[j]?).map part = (s.timers[j]?).map part := by
  rw [setTimer_get]
  split
  · next h =>
    obtain ⟨ha, rfl⟩ := List.getElem?_eq_some_iff.1 hold
    subst h
    simp [ha, hpart]
  · rfl

/-- One threshold redefined changes the three thresholds at most (R109). -/
theorem setThreshold_eq (sel : ThresholdSel) (v : Word32) (s : State) :
    s.setThreshold sel v =
      { s with
        thLower := (s.setThreshold sel v).thLower
        thUpper := (s.setThreshold sel v).thUpper
        thStopped := (s.setThreshold sel v).thStopped } := by
  cases sel <;> rfl

@[simp] theorem driveAll_nil (s : State) : s.driveAll [] = s := rfl

@[simp] theorem driveAll_cons (s : State) (w : PinWrite) (ws : List PinWrite) :
    s.driveAll (w :: ws) = (s.drive w).driveAll ws := rfl

theorem driveAll_append (s : State) (ws ws' : List PinWrite) :
    s.driveAll (ws ++ ws') = (s.driveAll ws).driveAll ws' := by
  simp [driveAll, List.foldl_append]

/-- Pin writes change the pins, the chain, OE and the trace only, and the trace grows by them. -/
theorem driveAll_eq (ws : List PinWrite) (s : State) :
    s.driveAll ws =
      { s with
        pins := (s.driveAll ws).pins
        chain := (s.driveAll ws).chain
        oe := (s.driveAll ws).oe
        trace := s.trace ++ ws } := by
  induction ws generalizing s with
  | nil => simp
  | cons w ws ih => rw [driveAll_cons, ih (s.drive w)]; simp

@[simp] theorem driveAll_db (ws : List PinWrite) (s : State) : (s.driveAll ws).db = s.db := by
  rw [driveAll_eq]
@[simp] theorem driveAll_colon (ws : List PinWrite) (s : State) : (s.driveAll ws).colon = s.colon := by
  rw [driveAll_eq]
@[simp] theorem driveAll_rb (ws : List PinWrite) (s : State) : (s.driveAll ws).rb = s.rb := by
  rw [driveAll_eq]
@[simp] theorem driveAll_timers (ws : List PinWrite) (s : State) : (s.driveAll ws).timers = s.timers := by
  rw [driveAll_eq]
@[simp] theorem driveAll_fLast (ws : List PinWrite) (s : State) : (s.driveAll ws).fLast = s.fLast := by
  rw [driveAll_eq]
@[simp] theorem driveAll_fAcc (ws : List PinWrite) (s : State) : (s.driveAll ws).fAcc = s.fAcc := by
  rw [driveAll_eq]
@[simp] theorem driveAll_fSp (ws : List PinWrite) (s : State) : (s.driveAll ws).fSp = s.fSp := by
  rw [driveAll_eq]
@[simp] theorem driveAll_fState (ws : List PinWrite) (s : State) : (s.driveAll ws).fState = s.fState := by
  rw [driveAll_eq]
@[simp] theorem driveAll_thLower (ws : List PinWrite) (s : State) : (s.driveAll ws).thLower = s.thLower := by
  rw [driveAll_eq]
@[simp] theorem driveAll_thUpper (ws : List PinWrite) (s : State) : (s.driveAll ws).thUpper = s.thUpper := by
  rw [driveAll_eq]
@[simp] theorem driveAll_thStopped (ws : List PinWrite) (s : State) : (s.driveAll ws).thStopped = s.thStopped := by
  rw [driveAll_eq]
@[simp] theorem driveAll_fault (ws : List PinWrite) (s : State) : (s.driveAll ws).fault = s.fault := by
  rw [driveAll_eq]
@[simp] theorem driveAll_cause (ws : List PinWrite) (s : State) : (s.driveAll ws).cause = s.cause := by
  rw [driveAll_eq]
@[simp] theorem driveAll_result (ws : List PinWrite) (s : State) : (s.driveAll ws).result = s.result := by
  rw [driveAll_eq]
@[simp] theorem driveAll_inputs (ws : List PinWrite) (s : State) : (s.driveAll ws).inputs = s.inputs := by
  rw [driveAll_eq]
@[simp] theorem driveAll_cfg (ws : List PinWrite) (s : State) : (s.driveAll ws).cfg = s.cfg := by
  rw [driveAll_eq]

@[simp] theorem driveAll_trace (ws : List PinWrite) (s : State) :
    (s.driveAll ws).trace = s.trace ++ ws := by
  rw [driveAll_eq]

/-- Pin writes that leave OE_N alone keep OE (R39). -/
theorem driveAll_oe (ws : List PinWrite) (s : State) (h : ∀ b, PinWrite.oeN b ∉ ws) :
    (s.driveAll ws).oe = s.oe := by
  induction ws generalizing s with
  | nil => rfl
  | cons w ws ih =>
    rw [driveAll_cons, ih _ fun b hb => h b (List.mem_cons_of_mem w hb)]
    cases w with
    | oeN b => exact absurd (List.mem_cons_self) (h b)
    | data b => rfl
    | clk b => rfl
    | latch b => rfl

end State

/-- A frame leaves OE_N alone (R30, R88). -/
theorem oeN_not_mem_frameWrites (F : Frame) (b : Bool) : PinWrite.oeN b ∉ frameWrites F := by
  simp [frameWrites, byteWrites, bitWrites, msbFirst]

namespace State

/-- One frame changes the three serial pins, the chain and the trace only (R88). -/
theorem emitFrame_eq (s : State) (F : Frame) :
    s.emitFrame F =
      { s with
        pins := (s.emitFrame F).pins
        chain := (s.emitFrame F).chain
        trace := s.trace ++ frameWrites F } := by
  have h : (s.emitFrame F).oe = s.oe := driveAll_oe _ s (oeN_not_mem_frameWrites F)
  have e := driveAll_eq (frameWrites F) s
  rw [show s.driveAll (frameWrites F) = s.emitFrame F from rfl, h] at e
  exact e

/-- The frames of a list of positions, as one list of pin writes (R90). -/
def framesOf (s : State) (l : List (Fin 4)) : List PinWrite :=
  l.flatMap fun p => frameWrites (s.frame p)

theorem framesOf_congr {s u : State} (hr : u.rb = s.rb) (hd : u.db = s.db) (l : List (Fin 4)) :
    u.framesOf l = s.framesOf l := by
  simp only [framesOf, frame, hr, hd]

@[simp] theorem emitFrame_db (s : State) (F : Frame) : (s.emitFrame F).db = s.db :=
  driveAll_db (frameWrites F) s
@[simp] theorem emitFrame_colon (s : State) (F : Frame) : (s.emitFrame F).colon = s.colon :=
  driveAll_colon (frameWrites F) s
@[simp] theorem emitFrame_rb (s : State) (F : Frame) : (s.emitFrame F).rb = s.rb :=
  driveAll_rb (frameWrites F) s
@[simp] theorem emitFrame_timers (s : State) (F : Frame) : (s.emitFrame F).timers = s.timers :=
  driveAll_timers (frameWrites F) s
@[simp] theorem emitFrame_fLast (s : State) (F : Frame) : (s.emitFrame F).fLast = s.fLast :=
  driveAll_fLast (frameWrites F) s
@[simp] theorem emitFrame_fAcc (s : State) (F : Frame) : (s.emitFrame F).fAcc = s.fAcc :=
  driveAll_fAcc (frameWrites F) s
@[simp] theorem emitFrame_fSp (s : State) (F : Frame) : (s.emitFrame F).fSp = s.fSp :=
  driveAll_fSp (frameWrites F) s
@[simp] theorem emitFrame_fState (s : State) (F : Frame) : (s.emitFrame F).fState = s.fState :=
  driveAll_fState (frameWrites F) s
@[simp] theorem emitFrame_thLower (s : State) (F : Frame) : (s.emitFrame F).thLower = s.thLower :=
  driveAll_thLower (frameWrites F) s
@[simp] theorem emitFrame_thUpper (s : State) (F : Frame) : (s.emitFrame F).thUpper = s.thUpper :=
  driveAll_thUpper (frameWrites F) s
@[simp] theorem emitFrame_thStopped (s : State) (F : Frame) : (s.emitFrame F).thStopped = s.thStopped :=
  driveAll_thStopped (frameWrites F) s
@[simp] theorem emitFrame_fault (s : State) (F : Frame) : (s.emitFrame F).fault = s.fault :=
  driveAll_fault (frameWrites F) s
@[simp] theorem emitFrame_cause (s : State) (F : Frame) : (s.emitFrame F).cause = s.cause :=
  driveAll_cause (frameWrites F) s
@[simp] theorem emitFrame_result (s : State) (F : Frame) : (s.emitFrame F).result = s.result :=
  driveAll_result (frameWrites F) s
@[simp] theorem emitFrame_inputs (s : State) (F : Frame) : (s.emitFrame F).inputs = s.inputs :=
  driveAll_inputs (frameWrites F) s
@[simp] theorem emitFrame_cfg (s : State) (F : Frame) : (s.emitFrame F).cfg = s.cfg :=
  driveAll_cfg (frameWrites F) s

@[simp] theorem emitFrame_oe (s : State) (F : Frame) : (s.emitFrame F).oe = s.oe :=
  driveAll_oe (frameWrites F) s (oeN_not_mem_frameWrites F)

theorem foldl_emitFrame (l : List (Fin 4)) (s : State) :
    l.foldl (fun u p => u.emitFrame (u.frame p)) s = s.driveAll (s.framesOf l) := by
  induction l generalizing s with
  | nil => rfl
  | cons p l ih =>
    rw [List.foldl_cons, ih, framesOf_congr (emitFrame_rb s _) (emitFrame_db s _)]
    exact (driveAll_append s (frameWrites (s.frame p)) (s.framesOf l)).symm

/-- A refresh is the pin writes of its four frames (R90). -/
theorem refreshAll_driveAll (s : State) : s.refreshAll = s.driveAll (s.framesOf positions) :=
  foldl_emitFrame positions s

@[simp] theorem refreshAll_db (s : State) : s.refreshAll.db = s.db := by
  rw [refreshAll_driveAll, driveAll_db]
@[simp] theorem refreshAll_colon (s : State) : s.refreshAll.colon = s.colon := by
  rw [refreshAll_driveAll, driveAll_colon]
@[simp] theorem refreshAll_rb (s : State) : s.refreshAll.rb = s.rb := by
  rw [refreshAll_driveAll, driveAll_rb]
@[simp] theorem refreshAll_timers (s : State) : s.refreshAll.timers = s.timers := by
  rw [refreshAll_driveAll, driveAll_timers]
@[simp] theorem refreshAll_fLast (s : State) : s.refreshAll.fLast = s.fLast := by
  rw [refreshAll_driveAll, driveAll_fLast]
@[simp] theorem refreshAll_fAcc (s : State) : s.refreshAll.fAcc = s.fAcc := by
  rw [refreshAll_driveAll, driveAll_fAcc]
@[simp] theorem refreshAll_fSp (s : State) : s.refreshAll.fSp = s.fSp := by
  rw [refreshAll_driveAll, driveAll_fSp]
@[simp] theorem refreshAll_fState (s : State) : s.refreshAll.fState = s.fState := by
  rw [refreshAll_driveAll, driveAll_fState]
@[simp] theorem refreshAll_thLower (s : State) : s.refreshAll.thLower = s.thLower := by
  rw [refreshAll_driveAll, driveAll_thLower]
@[simp] theorem refreshAll_thUpper (s : State) : s.refreshAll.thUpper = s.thUpper := by
  rw [refreshAll_driveAll, driveAll_thUpper]
@[simp] theorem refreshAll_thStopped (s : State) : s.refreshAll.thStopped = s.thStopped := by
  rw [refreshAll_driveAll, driveAll_thStopped]
@[simp] theorem refreshAll_fault (s : State) : s.refreshAll.fault = s.fault := by
  rw [refreshAll_driveAll, driveAll_fault]
@[simp] theorem refreshAll_cause (s : State) : s.refreshAll.cause = s.cause := by
  rw [refreshAll_driveAll, driveAll_cause]
@[simp] theorem refreshAll_result (s : State) : s.refreshAll.result = s.result := by
  rw [refreshAll_driveAll, driveAll_result]
@[simp] theorem refreshAll_inputs (s : State) : s.refreshAll.inputs = s.inputs := by
  rw [refreshAll_driveAll, driveAll_inputs]
@[simp] theorem refreshAll_cfg (s : State) : s.refreshAll.cfg = s.cfg := by
  rw [refreshAll_driveAll, driveAll_cfg]

@[simp] theorem refreshAll_trace (s : State) :
    s.refreshAll.trace = s.trace ++ s.framesOf positions := by
  rw [refreshAll_driveAll, driveAll_trace]

@[simp] theorem refreshAll_oe (s : State) : s.refreshAll.oe = s.oe := by
  rw [refreshAll_driveAll]
  refine driveAll_oe _ s fun b hb => ?_
  obtain ⟨p, -, hp⟩ := List.mem_flatMap.1 hb
  exact oeN_not_mem_frameWrites _ b hp

/-- A refresh changes the three serial pins, the chain and the trace only: no register of the block (R54,
R90). -/
theorem refreshAll_eq (s : State) :
    s.refreshAll =
      { s with
        pins := s.refreshAll.pins
        chain := s.refreshAll.chain
        trace := s.trace ++ s.framesOf positions } := by
  have e := driveAll_eq (s.framesOf positions) s
  rw [← refreshAll_driveAll, refreshAll_oe] at e
  exact e

end State

end Sys2Proof.Machine
end

