-- ==== Sys2Proof/Laws/Runs.lean ====
section
/-! SUPPORT. The small lemmas of a step over the waiting events and of a run, and that no event depends on
the events behind it: a proof about runs cites them and unfolds neither. -/

namespace Sys2Proof.Machine

variable {s t : State} {e : Input} {es : List Input}

/-- With no event waiting the machine waits (log entry 4). -/
theorem step_idle (h : s.inputs = []) : step s = .next s := by rw [step, takeEvent, h]

/-- A step takes the first waiting event, with the others left to wait (R57). -/
theorem step_cons (h : s.inputs = e :: es) : step s = deliver e { s with inputs := es } := by
  rw [step, takeEvent, h]

/-- The state a step answers. -/
theorem stepTo_next (h : step s = .next t) : stepTo s = t := by rw [stepTo, h]

@[simp] theorem stepsTo_zero (s : State) : stepsTo 0 s = s := rfl

@[simp] theorem stepsTo_succ (n : Nat) (s : State) : stepsTo (n + 1) s = stepsTo n (stepTo s) := rfl

@[simp] theorem runEvents_nil (s : State) : runEvents [] s = { s with inputs := [] } := rfl

@[simp] theorem resultsAlong_nil (s : State) : resultsAlong [] s = [] := rfl

/-- A command adds the RESULT it leaves (R63). -/
theorem resultsAlong_command (w : CommandWord) (es : List Input) (s : State) :
    resultsAlong (.command w :: es) s =
      (stepTo { s with inputs := .command w :: es }).result ::
        resultsAlong es (stepTo { s with inputs := .command w :: es }) := rfl

/-- An event that is no command adds nothing. -/
theorem resultsAlong_other (h : e.isCommand = false) (es : List Input) (s : State) :
    resultsAlong (e :: es) s = resultsAlong es (stepTo { s with inputs := e :: es }) := by
  simp [resultsAlong, h]

@[simp] theorem runFrom_state (es : List Input) (s : State) : (runFrom es s).state = runEvents es s := rfl

@[simp] theorem runFrom_results (es : List Input) (s : State) :
    (runFrom es s).results = resultsAlong es s := rfl

/-- An outcome and the outcome with other events waiting: the same next state but for these. -/
def Carries (es : List Input) (o o' : Out) : Prop :=
  ∃ t, o = .next t ∧ o' = .next { t with inputs := es }

section Carries

variable {s : State} {es : List Input}

/-- The checks before a command do not read the waiting events (R114). -/
theorem checked_carries {i : Instr} {b b' : Out} (h : Carries es b b') :
    Carries es (checked i s b) (checked i { s with inputs := es } b') := by
  unfold checked
  split
  · exact ⟨_, rfl, rfl⟩
  · split
    · exact h
    · exact ⟨_, rfl, rfl⟩

/-- Completing a command carries them along. -/
theorem complete_carries {r : Word32} {u u' : State} (h : u' = { u with inputs := es }) :
    Carries es (complete r u) (complete r u') := by
  subst h; exact ⟨_, rfl, rfl⟩

/-- Nor do the checks of a timer command (R114). -/
theorem onTimer_carries {i : Instr} {b b' : Timer → Out} (h : ∀ tm, Carries es (b tm) (b' tm)) :
    Carries es (onTimer i s b) (onTimer i { s with inputs := es } b') := by
  refine checked_carries ?_
  have e : ({ s with inputs := es } : State).timer? i.fields.a = s.timer? i.fields.a := rfl
  rw [e]
  cases s.timer? i.fields.a with
  | none => exact ⟨_, rfl, rfl⟩
  | some tm => exact h tm

/-- NUMBER's writes do not read the waiting events (R75). -/
theorem State.writeNumber_withInputs (d v : Nat) (s : State) (es : List Input) :
    ({ s with inputs := es } : State).writeNumber d v = { s.writeNumber d v with inputs := es } := by
  unfold State.writeNumber
  generalize positions.take d = l
  induction l generalizing s with
  | nil => rfl
  | cons p l ih => simp only [List.foldl_cons]; exact ih (s.writeDigit p _)

/-- Nor do pin writes (R88). -/
theorem State.driveAll_withInputs (ws : List PinWrite) (s : State) (es : List Input) :
    ({ s with inputs := es } : State).driveAll ws = { s.driveAll ws with inputs := es } := by
  induction ws generalizing s with
  | nil => rfl
  | cons w ws ih => exact ih (s.drive w)

/-- Nor does a refresh (R90). -/
theorem State.refreshAll_withInputs (s : State) (es : List Input) :
    ({ s with inputs := es } : State).refreshAll = { s.refreshAll with inputs := es } := by
  rw [State.refreshAll_driveAll, State.refreshAll_driveAll]
  exact State.driveAll_withInputs _ s es

/-- No command reads or writes the events that wait behind it (R53, R57): whatever waits, it answers the
same next state with these events. -/
theorem exec_carries (i : Instr) (s : State) (es : List Input) :
    Carries es (exec i s) (exec i { s with inputs := es }) := by
  cases i with
  | fsample f =>
    change Carries es (if s.fault then _ else _) (if s.fault then _ else _)
    split <;> exact ⟨_, rfl, rfl⟩
  | status f =>
    change Carries es (if _ then _ else if s.fault then _ else _)
      (if _ then _ else if s.fault then _ else _)
    split
    · exact ⟨_, rfl, rfl⟩
    · split <;> exact ⟨_, rfl, rfl⟩
  | tcfg f | tstart f | tstop f | trem f | tactive f =>
    all_goals exact onTimer_carries fun tm => ⟨_, rfl, rfl⟩
  | ttick f => exact onTimer_carries fun tm => by split <;> exact ⟨_, rfl, rfl⟩
  | refresh f =>
    exact checked_carries (complete_carries (State.refreshAll_withInputs s es))
  | number f =>
    refine checked_carries ?_
    cases digitCount? f.a with
    | none => exact ⟨_, rfl, rfl⟩
    | some d => exact complete_carries (State.writeNumber_withInputs d _ s es)
  | digit f =>
    refine checked_carries ?_
    cases position? f.a with
    | none => exact ⟨_, rfl, rfl⟩
    | some p => cases symbol? f.b <;> exact ⟨_, rfl, rfl⟩
  | message f =>
    refine checked_carries ?_
    cases message? f.a <;> exact ⟨_, rfl, rfl⟩
  | dbread f =>
    refine checked_carries ?_
    cases position? f.a <;> exact ⟨_, rfl, rfl⟩
  | fsetth f =>
    refine checked_carries ?_
    cases thresholdSel? f.a with
    | none => exact ⟨_, rfl, rfl⟩
    | some sel => cases sel <;> exact ⟨_, rfl, rfl⟩
  | fread f =>
    refine checked_carries ?_
    cases readSel? f.a with
    | none => exact ⟨_, rfl, rfl⟩
    | some sel => cases sel <;> exact ⟨_, rfl, rfl⟩
  | ftick f =>
    refine checked_carries ?_
    show Carries es _ (if s.thresholdsOrdered = true then _ else _)
    split <;> exact ⟨_, rfl, rfl⟩
  | _ f => exact checked_carries ⟨_, rfl, rfl⟩

/-- Nor does any event. -/
theorem deliver_carries (e : Input) (s : State) (es : List Input) :
    Carries es (deliver e s) (deliver e { s with inputs := es }) := by
  cases e with
  | command w =>
    simp only [deliver, presentCommand]
    split
    · unfold illegalOnPort; split <;> exact ⟨_, rfl, rfl⟩
    · split
      · unfold illegalOnPort; split <;> exact ⟨_, rfl, rfl⟩
      · exact exec_carries _ s es
  | edge nowUs => exact exec_carries (.fsample (edgeFields nowUs)) s es
  | reset p => exact ⟨_, rfl, rfl⟩
  | powerCycle ch p => exact ⟨_, rfl, rfl⟩

/-- A step takes its event only and leaves the others waiting, and it does not depend on them. -/
theorem stepTo_carries (e : Input) (es es' : List Input) (s : State) :
    stepTo { s with inputs := e :: es' } = { stepTo { s with inputs := e :: es } with inputs := es' } ∧
      (stepTo { s with inputs := e :: es }).inputs = es := by
  obtain ⟨t, h, h'⟩ := deliver_carries e { s with inputs := es } es'
  obtain ⟨u, g, g'⟩ := deliver_carries e { s with inputs := es } es
  have hu : t = { u with inputs := es } := next_inj.1 (h.symm.trans g')
  have h1 : stepTo { s with inputs := e :: es } = t := stepTo_next ((step_cons rfl).trans h)
  have h2 : stepTo { s with inputs := e :: es' } = { t with inputs := es' } :=
    stepTo_next ((step_cons rfl).trans h')
  rw [h1, h2]
  exact ⟨rfl, by rw [hu]⟩

/-- A step on an event with others behind it is the step on that event alone. -/
theorem stepTo_withInputs (e : Input) (es : List Input) (s : State) :
    stepTo { s with inputs := e :: es } = { stepTo { s with inputs := [e] } with inputs := es } :=
  (stepTo_carries e [] es s).1

/-- A run takes its first event and goes on with the others (R130). -/
theorem runEvents_cons (e : Input) (es : List Input) (s : State) :
    runEvents (e :: es) s = runEvents es (stepTo { s with inputs := [e] }) := by
  rw [runEvents, List.length_cons, stepsTo_succ, stepTo_withInputs]; rfl

/-- The results of a run do not depend on what waited before it. -/
theorem resultsAlong_withInputs (es xs : List Input) (s : State) :
    resultsAlong es { s with inputs := xs } = resultsAlong es s := by
  cases es <;> rfl

/-- The results of a run: the first event's, if it is a command, and then the others' (R130). -/
theorem resultsAlong_cons (e : Input) (es : List Input) (s : State) :
    resultsAlong (e :: es) s =
      (if e.isCommand then [(stepTo { s with inputs := [e] }).result] else []) ++
        resultsAlong es (stepTo { s with inputs := [e] }) := by
  simp only [resultsAlong]
  rw [stepTo_withInputs, resultsAlong_withInputs]
  split <;> rfl
end Carries

end Sys2Proof.Machine
end

