-- ==== Sys2Proof/Tests/Slice0.lean ====
section
/-! SUPPORT. Tests on fixed values and, for every obligation with hypotheses, a witness that meets them.
Expected values come from 95_test_vectors.md (its row is named at each test) or are worked out by hand
from the rule named. -/

namespace Sys2Proof.Tests

open Sys2Proof Sys2Proof.Machine

/-- The state an outcome answers. -/
def next? : Out → Option State
  | .next t => some t
  | .fault _ => none
  | .refused _ => none

/-- One part of the state after a command. -/
def after {α : Type} (i : Instr) (s : State) (look : State → α) : Option α := (next? (exec i s)).map look

/-- The four display words. -/
def words (s : State) : List DisplayWord := s.db.toList

/-- INSTANCE_T after reset with relays 1, 3 and 4 on (E1), timer 0 running as in E6 and the averager of EMA1. -/
def board : State :=
  { State.reset with
    rb := 0x1A
    timers := ⟨0x0A, 1000, 5000, true⟩ :: List.replicate 7 ⟨0, 0, 0, false⟩
    fLast := 100000, fAcc := 40000, fSp := 10000 }

/-- A halted block: SYMBOL_RANGE, as after step 4 of P5. -/
def halted : State := { board with fault := true, cause := 4 }

/-! ## Well-formed commands (R64, R67) -/

theorem test_wellformed_ok :
    (Instr.number ⟨4, 0, 0, 1234⟩).wellFormed = true ∧
    (Instr.fsample ⟨0, 0, 0, 314000⟩).wellFormed = true := by decide

theorem test_wellformed_refuses_position :
    (Instr.digit ⟨4, 0, 0, 0⟩).wellFormed = false ∧
    (Instr.dbread ⟨4, 0, 0, 0⟩).wellFormed = false := by decide

theorem test_wellformed_refuses_symbol : (Instr.digit ⟨0, 17, 0, 0⟩).wellFormed = false := by decide

theorem test_wellformed_refuses_digits :
    (Instr.number ⟨0, 0, 0, 5⟩).wellFormed = false ∧
    (Instr.number ⟨5, 0, 0, 5⟩).wellFormed = false := by decide

theorem test_wellformed_refuses_message : (Instr.message ⟨4, 0, 0, 0⟩).wellFormed = false := by decide

theorem test_wellformed_refuses_selector :
    (Instr.fsetth ⟨3, 0, 0, 1⟩).wellFormed = false ∧
    (Instr.fread ⟨7, 0, 0, 0⟩).wellFormed = false := by decide

theorem test_wellformed_refuses_field_a :
    (Instr.colon ⟨2, 0, 0, 0⟩).wellFormed = false ∧
    (Instr.ftick ⟨1, 0, 0, 0⟩).wellFormed = false := by decide

theorem test_wellformed_refuses_field_b :
    (Instr.number ⟨4, 1, 0, 5⟩).wellFormed = false ∧
    (Instr.rsetn ⟨1, 2, 0, 0⟩).wellFormed = false := by decide

theorem test_wellformed_refuses_field_c :
    (Instr.status ⟨0, 0, 1, 0⟩).wellFormed = false ∧
    (Instr.tcfg ⟨0, 0x0A, 1, 5000⟩).wellFormed = false := by decide

theorem test_wellformed_refuses_field_t :
    (Instr.digit ⟨0, 3, 0, 1⟩).wellFormed = false ∧
    (Instr.number ⟨4, 0, 0, 65536⟩).wellFormed = false := by decide

/-! ## Decoding: words written out by the format of R61, their values from 95_test_vectors.md -/

/-- E8. -/
theorem test_decode_digit :
    decode (0b00010000#8 ++ 0b00000010#8 ++ 0b00000111#8 ++ 0b00000000#8
      ++ 0b00000000000000000000000000000000#32) = .term (.digit ⟨2, 7, 0, 0⟩) := by decide

/-- E4. -/
theorem test_decode_number :
    decode (0b00010001#8 ++ 0b00000100#8 ++ 0b00000000#8 ++ 0b00000000#8
      ++ 0b00000000000000000000010011010010#32) = .term (.number ⟨4, 0, 0, 1234⟩) := by decide

/-- P5 step 1. -/
theorem test_decode_message :
    decode (0b00010010#8 ++ 0b00000011#8 ++ 0b00000000#8 ++ 0b00000000#8
      ++ 0b00000000000000000000000000000000#32) = .term (.message ⟨3, 0, 0, 0⟩) := by decide

/-- P2 step 2. -/
theorem test_decode_colon :
    decode (0b00010011#8 ++ 0b00000001#8 ++ 0b00000000#8 ++ 0b00000000#8
      ++ 0b00000000000000000000000000000000#32) = .term (.colon ⟨1, 0, 0, 0⟩) := by decide

/-- E8. -/
theorem test_decode_tcolon :
    decode (0b00010100#8 ++ 0b00000000#8 ++ 0b00000000#8 ++ 0b00000000#8
      ++ 0b00000000000000000000000000000000#32) = .term (.tcolon ⟨0, 0, 0, 0⟩) := by decide

/-- P2 step 4. -/
theorem test_decode_dbread :
    decode (0b00010101#8 ++ 0b00000010#8 ++ 0b00000000#8 ++ 0b00000000#8
      ++ 0b00000000000000000000000000000000#32) = .term (.dbread ⟨2, 0, 0, 0⟩) := by decide

/-- P5 step 2. -/
theorem test_decode_rset :
    decode (0b00100000#8 ++ 0b11111111#8 ++ 0b00000001#8 ++ 0b00000000#8
      ++ 0b00000000000000000000000000000000#32) = .term (.rset ⟨0xFF, 1, 0, 0⟩) := by decide

/-- E8. -/
theorem test_decode_rsetn :
    decode (0b00100001#8 ++ 0b00000011#8 ++ 0b00000001#8 ++ 0b00000000#8
      ++ 0b00000000000000000000000000000000#32) = .term (.rsetn ⟨3, 1, 0, 0⟩) := by decide

/-- P1 step 7. -/
theorem test_decode_rget :
    decode (0b00100010#8 ++ 0b11111111#8 ++ 0b00000000#8 ++ 0b00000000#8
      ++ 0b00000000000000000000000000000000#32) = .term (.rget ⟨0xFF, 0, 0, 0⟩) := by decide

/-- R61 and R64. -/
theorem test_decode_rison :
    decode (0b00100011#8 ++ 0b00001000#8 ++ 0b00000000#8 ++ 0b00000000#8
      ++ 0b00000000000000000000000000000000#32) = .term (.rison ⟨8, 0, 0, 0⟩) := by decide

/-- R61 and R64. -/
theorem test_decode_rmask :
    decode (0b00100100#8 ++ 0b00000111#8 ++ 0b00000000#8 ++ 0b00000000#8
      ++ 0b00000000000000000000000000000000#32) = .term (.rmask ⟨7, 0, 0, 0⟩) := by decide

/-- P1 step 6. -/
theorem test_decode_renable :
    decode (0b00100101#8 ++ 0b00000000#8 ++ 0b00000000#8 ++ 0b00000000#8
      ++ 0b00000000000000000000000000000000#32) = .term (.renable ⟨0, 0, 0, 0⟩) := by decide

/-- R61 and R64. -/
theorem test_decode_rdisable :
    decode (0b00100110#8 ++ 0b00000000#8 ++ 0b00000000#8 ++ 0b00000000#8
      ++ 0b00000000000000000000000000000000#32) = .term (.rdisable ⟨0, 0, 0, 0⟩) := by decide

/-- E8. -/
theorem test_decode_refresh :
    decode (0b00110000#8 ++ 0b00000000#8 ++ 0b00000000#8 ++ 0b00000000#8
      ++ 0b00000000000000000000000000000000#32) = .term (.refresh ⟨0, 0, 0, 0⟩) := by decide

/-- P3 step 1. -/
theorem test_decode_tcfg :
    decode (0b01000000#8 ++ 0b00000000#8 ++ 0b00001010#8 ++ 0b00000000#8
      ++ 0b00000000000000000001001110001000#32) = .term (.tcfg ⟨0, 0x0A, 0, 5000⟩) := by decide

/-- P3 step 5. -/
theorem test_decode_tstart :
    decode (0b01000001#8 ++ 0b00000001#8 ++ 0b00000000#8 ++ 0b00000000#8
      ++ 0b11111111111111111111000000000000#32) = .term (.tstart ⟨1, 0, 0, 4294963200⟩) := by decide

/-- P3 step 7. -/
theorem test_decode_ttick :
    decode (0b01000010#8 ++ 0b00000000#8 ++ 0b00000000#8 ++ 0b00000000#8
      ++ 0b11111111111111111111100000000000#32) = .term (.ttick ⟨0, 0, 0, 4294965248⟩) := by decide

/-- P3 step 9. -/
theorem test_decode_tstop :
    decode (0b01000011#8 ++ 0b00000001#8 ++ 0b00000000#8 ++ 0b00000000#8
      ++ 0b00000000000000000000000000000000#32) = .term (.tstop ⟨1, 0, 0, 0⟩) := by decide

/-- P3 step 14. -/
theorem test_decode_trem :
    decode (0b01000100#8 ++ 0b00000000#8 ++ 0b00000000#8 ++ 0b00000000#8
      ++ 0b00000000000000000000001110001010#32) = .term (.trem ⟨0, 0, 0, 906⟩) := by decide

/-- section 2.6. -/
theorem test_decode_tactive :
    decode (0b01000101#8 ++ 0b11001000#8 ++ 0b00000000#8 ++ 0b00000000#8
      ++ 0b00000000000000000000000000000000#32) = .term (.tactive ⟨200, 0, 0, 0⟩) := by decide

/-- P4 step 21. -/
theorem test_decode_fsample :
    decode (0b01010000#8 ++ 0b00000000#8 ++ 0b00000000#8 ++ 0b00000000#8
      ++ 0b00000000000001001100101010010000#32) = .term (.fsample ⟨0, 0, 0, 314000⟩) := by decide

/-- P4 step 25. -/
theorem test_decode_ftick :
    decode (0b01010001#8 ++ 0b00000000#8 ++ 0b00000000#8 ++ 0b00000000#8
      ++ 0b00000000000011000110101110110001#32) = .term (.ftick ⟨0, 0, 0, 814001⟩) := by decide

/-- R61 and R64. -/
theorem test_decode_fsetth :
    decode (0b01010010#8 ++ 0b00000010#8 ++ 0b00000000#8 ++ 0b00000000#8
      ++ 0b00000000000000000000000000000101#32) = .term (.fsetth ⟨2, 0, 0, 5⟩) := by decide

/-- P4 step 26. -/
theorem test_decode_fread :
    decode (0b01010011#8 ++ 0b00000110#8 ++ 0b00000000#8 ++ 0b00000000#8
      ++ 0b00000000000000000000000000000000#32) = .term (.fread ⟨6, 0, 0, 0⟩) := by decide

/-- section 2.6. -/
theorem test_decode_status :
    decode (0b01100000#8 ++ 0b00000000#8 ++ 0b00000000#8 ++ 0b00000001#8
      ++ 0b00000000000000000000000000000000#32) = .term (.status ⟨0, 0, 1, 0⟩) := by decide

theorem test_decode_illegal :
    decode 0#64 = .illegalOpcode 0 ∧ decode 0x1600000000000000 = .illegalOpcode 0x16 ∧
    decode 0xFF01010100000001 = .illegalOpcode 0xFF := by decide

theorem test_encode_round :
    encode (.tcfg ⟨0, 0x0A, 0, 5000⟩) = 0x40000A0000001388 ∧
    encode (.fread ⟨3, 0, 0, 0⟩) = 0x5303000000000000 := by decide

theorem test_decodeTableWord :
    decodeTableWord 64 0x2103010000000000 = some (.rsetn ⟨3, 1, 0, 0⟩) ∧
    decodeTableWord 64 0x1600000000000000 = none := by decide

/-! ## The tables -/

theorem test_instance_legal : instanceT.Legal := by decide

/-- The character table of 95_test_vectors.md. -/
theorem test_character_table :
    (List.finRange 17).map instanceT.ct =
      [0x2010, 0x2619, 0x2204, 0x2600, 0x2409, 0x2402, 0x2002, 0x2618, 0x2000, 0x2400, 0x261F,
       0x2010, 0x220B, 0x200E, 0x2006, 0x220F, 0x2617] := by decide

theorem test_reset_words : words State.reset = [0x661F, 0x2E1F, 0x361F, 0xA61F] := by decide

/-- The reserved bits of every row of the opcode table are those of its command, but for the edge's row. -/
theorem test_reserved_masks :
    reservedZeroMasks.all (fun row =>
      match decode (row.1 ++ (0 : BitVec 56)) with
      | .term i => assembleWord 0 i.reservedMask == row.2
      | .illegalOpcode _ => false) = true := by decide

/-! ## Display commands -/

/-- E8. -/
theorem test_digit : after (.digit ⟨2, 7, 0, 0⟩) State.reset words =
    some [0x661F, 0x2E1F, 0x3618, 0xA61F] := by decide

/-- DSP5: the position is reported first. -/
theorem test_digit_range_order : after (.digit ⟨7, 20, 0, 0⟩) State.reset (·.cause) = some 3 := by decide

/-- E4. -/
theorem test_number : after (.number ⟨4, 0, 0, 1234⟩) State.reset words =
    some [0x6619, 0x2A04, 0x3600, 0xA409] := by decide

/-- DSP10: three digits, the fourth word kept. -/
theorem test_number_three : after (.number ⟨3, 0, 0, 1234⟩) State.reset words =
    some [0x6204, 0x2E00, 0x3409, 0xA61F] := by decide

/-- DSP20. -/
theorem test_message : after (.message ⟨3, 0, 0, 0⟩) State.reset words =
    some [0x661F, 0x2806, 0x320F, 0xA20F] := by decide

/-- DSP21. -/
theorem test_message_range :
    after (.message ⟨4, 0, 0, 0⟩) State.reset (fun t => (t.fault, t.cause)) = some (true, 6) := by decide

/-- DSP22. -/
theorem test_colon : after (.colon ⟨1, 0, 0, 0⟩) State.reset (fun t => (words t, t.colon)) =
    some ([0x661F, 0x0E1F, 0x161F, 0xA61F], true) := by decide

/-- E8. -/
theorem test_tcolon : after (.tcolon ⟨0, 0, 0, 0⟩) State.reset (fun t => (words t, t.colon, t.result)) =
    some ([0x661F, 0x0E1F, 0x161F, 0xA61F], true, 1) := by decide

/-- The toggle follows COLON, not the colon bits (R78, P2 steps 5 to 7): COLON 1 over dark words. -/
theorem test_tcolon_follows_flag :
    after (.tcolon ⟨0, 0, 0, 0⟩) { State.reset with colon := true } (fun t => (words t, t.result)) =
      some ([0x661F, 0x2E1F, 0x361F, 0xA61F], 0) := by decide

/-- R79. -/
theorem test_dbread : after (.dbread ⟨3, 0, 0, 0⟩) State.reset (·.result) = some 0x0000A61F := by decide

/-! ## Relay commands -/

/-- E2. -/
theorem test_rset : after (.rset ⟨0x0F, 0xF5, 0, 0⟩) board (·.rb) = some 0x15 := by decide

/-- R80: RSET leaves the masked-off bits. -/
theorem test_rset_mask_zero : after (.rset ⟨0x00, 0xFF, 0, 0⟩) board (·.rb) = some 0x1A := by decide

/-- R81, R83: relay 8 is bit 0. -/
theorem test_rsetn : after (.rsetn ⟨8, 1, 0, 0⟩) board (·.rb) = some 0x1B := by decide

theorem test_rsetn_off : after (.rsetn ⟨3, 0, 0, 0⟩) board (·.rb) = some 0x12 := by decide

/-- E6 row 4. -/
theorem test_rget : after (.rget ⟨0x0A, 0, 0, 0⟩) board (·.result) = some 0x0000000A := by decide

theorem test_rison : after (.rison ⟨4, 0, 0, 0⟩) board (·.result) = some 1 ∧
    after (.rison ⟨2, 0, 0, 0⟩) board (·.result) = some 0 := by decide

/-- E3. -/
theorem test_rmask : [0, 1, 7, 8, 9, 255].map (fun n => after (.rmask ⟨n, 0, 0, 0⟩) board (·.result)) =
    [some 0x01, some 0x02, some 0x80, some 0x01, some 0x01, some 0x01] := by decide

/-- Section 2.6: STATUS after RENABLE and COLON 1 is 0x40, so OE is 0 after RENABLE. -/
theorem test_renable : after (.renable ⟨0, 0, 0, 0⟩) board (fun t => (t.oe, t.rb)) = some (false, 0x1A) := by
  decide

theorem test_rdisable :
    after (.rdisable ⟨0, 0, 0, 0⟩) { board with oe := false } (fun t => (t.oe, t.oeN)) =
      some (true, true) := by decide

/-! ## The serial bus -/

/-- E1: the bits of frame 0, and what its latch edge commits over a chain of ones. -/
theorem test_golden_frame :
    sentBits false false (frameWrites 0x1A6600) =
      [false, false, false, false, false, false, false, false,
       false, true, true, false, false, true, true, false,
       false, false, false, true, true, false, true, false] := by decide

theorem test_golden_chain :
    ({ State.reset with chain := ⟨0xFFFFFF, 0xFF, 0xFF, 0xFF⟩ }.emitFrame 0x1A6600).chain =
      ⟨0x00661A, 0x1A, 0x66, 0x00⟩ := by decide +kernel

/-- E1 and P1 step 5: after REFRESH the relays are RB and the display holds position 3. -/
theorem test_refresh :
    after (.refresh ⟨0, 0, 0, 0⟩) board (fun t => (t.chain.outRelay, t.shownWord)) =
      some (0x1A, 0xA61F) := by decide +kernel

/-! ## Timers -/

/-- E6 row 1. -/
theorem test_tcfg : after (.tcfg ⟨1, 0x0A, 0, 1000⟩) board (fun t => (t.timers[1]?, t.rb)) =
    some (some ⟨0x0A, 1000, 0, false⟩, 0x1A) := by decide

/-- TMR16 and section 2.6: TIMER_ID_RANGE. -/
theorem test_tcfg_range : after (.tcfg ⟨8, 0x0A, 0, 1000⟩) board (·.cause) = some 7 := by decide

/-- E6 row 3. -/
theorem test_tstart :
    after (.tstart ⟨0, 0, 0, 5000⟩) { State.reset with timers := [⟨0x0A, 1000, 0, false⟩] }
      (fun t => (t.timers, t.rb)) = some ([⟨0x0A, 1000, 5000, true⟩], 0x0A) := by decide

/-- E6 row 9: elapsed 1000 is not above 1000. -/
theorem test_ttick_at_timeout :
    after (.ttick ⟨0, 0, 0, 6000⟩) board (fun t => (t.result, t.rb)) = some (1, 0x1A) := by decide

/-- E6 row 10: elapsed 1001 is. -/
theorem test_ttick_expires :
    after (.ttick ⟨0, 0, 0, 6001⟩) board (fun t => (t.result, t.rb)) = some (0, 0x10) := by decide

/-- R100. -/
theorem test_tstop : after (.tstop ⟨0, 0, 0, 0⟩) board (fun t => (t.timers[0]?, t.rb)) =
    some (some ⟨0x0A, 1000, 5000, false⟩, 0x10) := by decide

/-- E6: TREM at 6003 on the timer still Active underflows; row 6 before. -/
theorem test_trem : after (.trem ⟨0, 0, 0, 6003⟩) board (·.result) = some 0xFFFFFFFD ∧
    after (.trem ⟨0, 0, 0, 5400⟩) board (·.result) = some 0x00000258 := by decide

/-- R102. -/
theorem test_tactive : after (.tactive ⟨0, 0, 0, 0⟩) board (·.result) = some 1 ∧
    after (.tactive ⟨1, 0, 0, 0⟩) board (·.result) = some 0 := by decide

/-! ## The frequency switch -/

/-- EMA1. -/
theorem test_fsample :
    after (.fsample ⟨0, 0, 0, 112000⟩) board (fun t => (t.fLast, t.fAcc, t.fSp)) =
      some (112000, 42000, 10500) := by decide

/-- EMA3: the 32-bit wrap. -/
theorem test_fsample_wraps :
    after (.fsample ⟨0, 0, 0, 0xF0000000⟩)
      { State.reset with fAcc := 0x80000000, fSp := 0x20000000 } (fun t => (t.fAcc, t.fSp)) =
      some (0x50000000, 0x14000000) := by decide

/-- The transition table of section 2.5, one row a state before, the periods in its order. -/
theorem test_ftick_table :
    [FreqState.stopped, .low, .high].map (fun before =>
      [(0 : Word32), 9999, 10000, 15000, 20000, 20001, 499999, 500000, 500001].map
        (fun p => hysteresis 10000 20000 500000 p before)) =
    [[.high, .high, .high, .high, .high, .low, .low, .stopped, .stopped],
     [.high, .high, .low, .low, .low, .low, .low, .low, .stopped],
     [.high, .high, .high, .high, .high, .low, .low, .low, .stopped]] := by decide

/-- FRQ2 and FRQ3. -/
theorem test_ftick_silence :
    after (.ftick ⟨0, 0, 0, 500000⟩) State.reset (·.result) = some 2 ∧
    after (.ftick ⟨0, 0, 0, 500001⟩) { State.reset with fState := .low } (·.result) = some 0 := by decide

/-- FRQ5, in its second step. -/
theorem test_ftick_order :
    after (.ftick ⟨0, 0, 0, 1000⟩) { State.reset with thLower := 20000 } (·.cause) = some 9 := by decide

/-- R109. -/
theorem test_fsetth : after (.fsetth ⟨1, 0, 0, 9000⟩) State.reset
    (fun t => (t.thLower, t.thUpper, t.thStopped)) = some (10000, 9000, 500000) := by decide

/-- FRQ8. -/
theorem test_fsetth_range : after (.fsetth ⟨3, 0, 0, 1⟩) State.reset (·.cause) = some 8 := by decide

/-- FRQ11, and the selectors of R110 in order. -/
theorem test_fread :
    [0, 1, 2, 3, 4, 5, 6].map
      (fun n => after (.fread ⟨n, 0, 0, 0⟩) { board with fState := .high } (·.result)) =
    [some 10000, some 20000, some 0x0007A120, some 10000, some 40000, some 100000, some 2] := by decide

theorem test_fread_range : after (.fread ⟨7, 0, 0, 0⟩) State.reset (·.cause) = some 8 := by decide

/-! ## Status, halting, inputs -/

/-- Section 2.6. -/
theorem test_status : after (.status ⟨0, 0, 0, 0⟩) State.reset (·.result) = some 0x20 ∧
    after (.status ⟨0, 0, 0, 0⟩) { halted with oe := false } (·.result) = some 0x14 := by decide

/-- Section 2.6, halt behaviour row 7: ignored, not a second fault. -/
theorem test_status_reserved_halted :
    after (.status ⟨0, 0, 1, 0⟩) halted (fun t => (t.result, t.cause)) = some (0, 4) := by decide

/-- Section 2.6, rows of cause 1: the all-zero word, and FSAMPLE on the command port. -/
theorem test_port_illegal :
    (next? (presentCommand 0 State.reset)).map (fun t => (t.fault, t.cause)) = some (true, 1) ∧
    (next? (presentCommand 0x50000000000003E8 State.reset)).map (·.cause) = some 1 := by decide

/-- The host's way in: the next step runs the instruction of the word, an edge for FSAMPLE's. -/
theorem test_withFetchWord :
    (next? (step (State.reset.withFetchWord 64 0x2103010000000000))).map (·.rb) = some 0x08 ∧
    (next? (step (State.reset.withFetchWord 64 0x5000000000001F40))).map (·.fAcc) = some 8000 := by
  decide

/-- E3 and section 2.6: RMASK 8, an edge, and a faulting DIGIT, from power-up: one result for each command. -/
theorem test_run_results :
    let r := runProgram instanceT Chain.named
      [.command 0x2408000000000000, .edge 8000, .command 0x1000110000000000]
    r.results = [0x01, 0x00] ∧ r.faulted = true ∧ r.state.fAcc = 8000 := by decide +kernel

/-- Two programs that end in one state and differ in an earlier RESULT end differently (R130). -/
theorem test_run_results_differ :
    runProgram instanceT Chain.named [.command 0x2408000000000000, .command 0x2400000000000000] ≠
      runProgram instanceT Chain.named [.command 0x2407000000000000, .command 0x2400000000000000] := by
  decide +kernel

/-! ## The assembler (E4, E6, P4, R71) -/

theorem test_assemble :
    assembleLine "NUMBER 1234, 4".toList = .event (.command 0x11040000000004D2) ∧
    assembleLine "TSTART 0, @4294963200 ; start".toList = .event (.command 0x41000000FFFFF000) ∧
    assembleLine "FSAMPLE @8000".toList = .event (.edge 8000) := by decide +kernel

theorem test_assemble_names :
    assembleLine "FREAD STATE".toList = .event (.command 0x5306000000000000) ∧
    assembleLine "DIGIT 0, '_'".toList = .event (.command 0x1000100000000000) ∧
    assembleLine "RSET 0xFF, 0x0F".toList = .event (.command 0x20FF0F0000000000) ∧
    assembleLine "TCOLON 1".toList = .malformed := by decide +kernel

/-! ## Witnesses: states and operands that meet the hypotheses of each obligation, clause by clause. -/

/-- `board` with a list of waiting events. -/
def waiting (es : List Input) : State := { board with inputs := es }

/-- A legal parameter set that is not INSTANCE_T: one timer, no smoothing, other thresholds. -/
def oneTimer : Params :=
  { instanceT with
    timerInit := [⟨0x81, 10⟩], smoothShift := 0
    thLowerInit := 1, thUpperInit := 2, thStoppedInit := 3 }

theorem witness_oneTimer_legal : oneTimer.Legal := by decide

/-- `board` satisfies the invariant. -/
theorem witness_board_inv : board.Inv := by constructor <;> decide

/-- The halted block satisfies it too. -/
theorem witness_halted_inv : halted.Inv := by constructor <;> decide

/-- Two legal instances. -/
theorem witness_EveryLegalResetSatisfiesInvariant : instanceT.Legal ∧ oneTimer.Legal := by decide

theorem witness_DecodeAndEncodeAgree :
    decode 0x1002070000000000 = .term (.digit ⟨2, 7, 0, 0⟩) ∧
    decode 0x60FFFFFFFFFFFFFF = .term (.status ⟨0xFF, 0xFF, 0xFF, 0xFFFFFFFF⟩) ∧
    decode 0x0FFFFFFFFFFFFFFF = .illegalOpcode 0x0F := by decide

theorem witness_DecoderIsTotalAndKeepsFields :
    (Instr.status ⟨1, 2, 3, 4⟩).opcode = opByte 0x6001020300000004 ∧
    (Instr.status ⟨1, 2, 3, 4⟩).fields = fieldsOf 0x6001020300000004 := by decide

theorem witness_StepRunsTheDecodedCommand :
    ((waiting [.command 0x2103010000000000, .edge 7]).inputs = .command 0x2103010000000000 :: [.edge 7] ∧
      decode 0x2103010000000000 = .term (.rsetn ⟨3, 1, 0, 0⟩) ∧
      (Instr.rsetn ⟨3, 1, 0, 0⟩).agent = .C) ∧
    (waiting [.edge 7]).inputs = [.edge 7] ∧ board.inputs = [] := by decide

/-- Each range of illegal opcodes at its two ends. -/
theorem witness_IllegalOpcodesFault :
    board.fault = false ∧ (waiting [.command 0]).inputs = [.command 0] ∧
    (waiting [.edge 0xFFFFFFFF]).inputs = [.edge 0xFFFFFFFF] ∧
    [0x00, 0x0F, 0x16, 0x1F, 0x27, 0x2F, 0x31, 0x3F, 0x46, 0x50, 0x54, 0x5F, 0x61, 0xFF].all
      (fun op : Byte =>
        let n := (opByte (assembleWord op ⟨0, 0, 0, 0⟩)).toNat
        n ≤ 0x0F || (0x16 ≤ n && n ≤ 0x1F) || (0x27 ≤ n && n ≤ 0x2F) || (0x31 ≤ n && n ≤ 0x3F) ||
          (0x46 ≤ n && n ≤ 0x50) || (0x54 ≤ n && n ≤ 0x5F) || 0x61 ≤ n) = true := by decide

/-- A halted machine and a word that is not STATUS's; an opcode no command of agent C has; a command with
a first fault, with two faults at once (the position is first), and with none. -/
theorem witness_CommandCheckOrder :
    (halted.fault = true ∧ (0x6000000100000000 : CommandWord) ≠ encode (.status ⟨0, 0, 0, 0⟩)) ∧
    board.fault = false ∧
    decode 0x5000000000000000 = .term (.fsample ⟨0, 0, 0, 0⟩) ∧
      (Instr.fsample ⟨0, 0, 0, 0⟩).agent = .E ∧
    (decode 0x1007140000000000 = .term (.digit ⟨7, 20, 0, 0⟩) ∧
      firstFault (.digit ⟨7, 20, 0, 0⟩) board = some .positionRange) ∧
    firstFault (.digit ⟨3, 16, 0, 0⟩) board = none ∧
    firstFault (.tcfg ⟨8, 0, 0, 0⟩) board = some .timerIdRange ∧
    firstFault (.tcfg ⟨7, 0, 0, 0⟩) board = none := by decide

/-- The opcode 0x16 is no command's. -/
theorem witness_CommandCheckOrder_no_row (i : Instr) : i.agent = .C → i.opcode ≠ opByte 0x1600000000000000 := by
  cases i <;> (intro; simp only [Instr.opcode]; decide)

theorem witness_ReservedBitsFault :
    (0x11, 0x0000FFFFFFFF0000) ∈ reservedZeroMasks ∧ opByte 0x1104000000010000 = 0x11 ∧
    (0x1104000000010000 : CommandWord) &&& 0x0000FFFFFFFF0000 ≠ 0 ∧
    (0x13, 0x00FEFFFFFFFFFFFF) ∈ reservedZeroMasks ∧ opByte 0x1302000000000000 = 0x13 ∧
    (0x1302000000000000 : CommandWord) &&& 0x00FEFFFFFFFFFFFF ≠ 0 ∧
    0xFFFF < (⟨4, 0, 0, 65536⟩ : Fields).t.toNat := by decide

/-- One command for every code of the table that execution raises, and one that raises none. -/
theorem witness_FaultCausesOfTheTable :
    board.fault = false ∧ board.cause = 0 ∧
    [Instr.status ⟨0, 0, 1, 0⟩, .digit ⟨4, 0, 0, 0⟩, .dbread ⟨4, 0, 0, 0⟩, .digit ⟨0, 17, 0, 0⟩,
      .number ⟨0, 0, 0, 1⟩, .number ⟨5, 0, 0, 1⟩, .message ⟨4, 0, 0, 0⟩, .tactive ⟨8, 0, 0, 0⟩,
      .fsetth ⟨3, 0, 0, 0⟩, .fread ⟨7, 0, 0, 0⟩, .digit ⟨3, 16, 0, 0⟩, .fsample ⟨1, 0, 0, 0⟩].map
      (fun i => after i board (·.cause)) =
    [some 2, some 3, some 3, some 4, some 5, some 5, some 6, some 7, some 8, some 8, some 0, some 0] ∧
    after (.ftick ⟨0, 0, 0, 0⟩) { board with thUpper := 9000 } (·.cause) = some 9 := by decide

theorem witness_FaultsArePrecise :
    board.fault = false ∧
    ∃ t, exec (.digit ⟨0, 17, 0, 0⟩) board = .next t ∧ t.fault = true := ⟨by decide, _, rfl, by decide⟩

theorem witness_HaltedBlockIgnoresEvents :
    halted.fault = true ∧ (0 : CommandWord) ≠ encode (.status ⟨0, 0, 0, 0⟩) ∧
    (waiting [.command 0]).inputs = [.command 0] ∧
    (waiting [.command (encode (.status ⟨0, 0, 0, 0⟩))]).inputs =
      [.command (encode (.status ⟨0, 0, 0, 0⟩))] ∧
    (waiting [.edge 5000]).inputs = [.edge 5000] := by decide

theorem witness_OnlyResetLeavesTheHalt :
    halted.fault = true ∧ (∀ e ∈ [Input.command 0x20FF000000000000, .edge 5000], e.ofProgram = true) ∧
    ({ halted with inputs := [.reset none] }).inputs = [.reset none] := by decide

theorem witness_ResetValues : instanceT.timerInit[7]? = some ⟨0, 0⟩ ∧ oneTimer.timerInit[0]? = some ⟨0x81, 10⟩ := by
  decide

theorem witness_ResetEventRestoresRegisters :
    (waiting [.reset (some 0x3000000000000000), .edge 1]).inputs =
      .reset (some 0x3000000000000000) :: [.edge 1] := by decide

theorem witness_PowerCycleLosesAllState :
    let ch : Chain := ⟨0xFFFFFF, 0xFF, 0xFF, 0xFF⟩
    (waiting [.powerCycle ch none]).inputs = [.powerCycle ch none] ∧
    ({ halted with inputs := [.powerCycle ch (some 0)] }).inputs = [.powerCycle ch (some 0)] ∧
    (waiting []).cfg = halted.cfg ∧ (waiting []).trace = halted.trace := by decide

theorem witness_EveryStepKeepsInvariant : board.Inv ∧ ∃ t, step board = .next t :=
  ⟨witness_board_inv, _, rfl⟩

theorem witness_SelectBitsAlongEveryRun :
    instanceT.Legal ∧
    after (.digit ⟨2, 7, 0, 0⟩) board (fun t => t.db.get 2 != board.db.get 2) = some true ∧
    after (.colon ⟨1, 0, 0, 0⟩) board (fun t => t.db.get 1 != board.db.get 1) = some true := by decide

/-- A command of every group that the statement separates answers a next state. -/
theorem witness_OnlyTheNamedCommandsWrite :
    (next? (exec (.status ⟨0, 0, 0, 0⟩) board)).isSome ∧ (next? (exec (.digit ⟨0, 0, 0, 0⟩) board)).isSome ∧
    (next? (exec (.tcolon ⟨0, 0, 0, 0⟩) board)).isSome ∧ (next? (exec (.rset ⟨1, 1, 0, 0⟩) board)).isSome ∧
    (next? (exec (.renable ⟨0, 0, 0, 0⟩) board)).isSome ∧ (next? (exec (.tcfg ⟨0, 0, 0, 0⟩) board)).isSome ∧
    (next? (exec (.fsample ⟨0, 0, 0, 0⟩) board)).isSome ∧ (next? (exec (.ftick ⟨0, 0, 0, 0⟩) board)).isSome ∧
    (next? (exec (.fsetth ⟨0, 0, 0, 0⟩) board)).isSome ∧
    after (.digit ⟨0, 17, 0, 0⟩) board (fun t => t.fault != board.fault && t.cause != board.cause) =
      some true := by decide

theorem witness_ReadsChangeOnlyResult :
    [Instr.dbread ⟨0, 0, 0, 0⟩, .rget ⟨1, 0, 0, 0⟩, .rison ⟨1, 0, 0, 0⟩, .rmask ⟨1, 0, 0, 0⟩,
      .trem ⟨0, 0, 0, 0⟩, .tactive ⟨0, 0, 0, 0⟩, .fread ⟨0, 0, 0, 0⟩, .status ⟨0, 0, 0, 0⟩].all
      (fun i => after i board (·.fault) == some board.fault) = true ∧
    after (.refresh ⟨0, 0, 0, 0⟩) board (·.fault) = some board.fault := by decide +kernel

theorem witness_CommandsAreIdempotent :
    (Instr.ttick ⟨0, 0, 0, 6001⟩).opcode.toNat ∉ [0x14, 0x25, 0x26, 0x30, 0x50] ∧
    (next? (exec (.ttick ⟨0, 0, 0, 6001⟩) board)).isSome ∧
    (Instr.renable ⟨0, 0, 0, 0⟩).opcode.toNat ∈ [0x25, 0x26, 0x30] ∧ board.pins.clk = false ∧
    ((next? (exec (.renable ⟨0, 0, 0, 0⟩) board)).bind (fun t => next? (exec (.renable ⟨0, 0, 0, 0⟩) t))).isSome ∧
    board.fault = false ∧ (Instr.tcolon ⟨0, 0, 0, 0⟩).reservedClear = true ∧
    ((next? (exec (.tcolon ⟨0, 0, 0, 0⟩) board)).bind (fun t => next? (exec (.tcolon ⟨0, 0, 0, 0⟩) t))).isSome ∧
    ((next? (exec (.fsample ⟨0, 0, 0, 9⟩) board)).bind (fun t => next? (exec (.fsample ⟨0, 0, 0, 9⟩) t))).isSome := by
  decide

theorem witness_CommandsCommuteWithEdges :
    (Instr.number ⟨4, 0, 0, 1234⟩).opcode.toNat ∉ [0x50, 0x51, 0x53] ∧ board.fault = false ∧
    after (.number ⟨4, 0, 0, 1234⟩) board (·.fault) = some false := by decide

theorem witness_CharacterTableEntries : instanceT.Legal ∧ oneTimer.Legal := by decide

theorem witness_GoldenVectorFixesPins : instanceT.Legal := by decide

theorem witness_DigitWritesItsWord :
    board.fault = false ∧ (⟨3, 16, 0, 0⟩ : Fields).a.toNat = (3 : Fin 4).val ∧
    (⟨3, 16, 0, 0⟩ : Fields).b.toNat = (16 : Fin 17).val ∧ (⟨3, 16, 0, 0⟩ : Fields).c = 0 ∧
    (⟨3, 16, 0, 0⟩ : Fields).t = 0 := by decide

/-- One digit and four, the largest value; a written and a kept position. -/
theorem witness_NumberShowsItsDigits :
    board.fault = false ∧
    (let f : Fields := ⟨4, 0, 0, 65535⟩
     1 ≤ f.a.toNat ∧ f.a.toNat ≤ 4 ∧ f.b = 0 ∧ f.c = 0 ∧ f.t.toNat < 65536 ∧
     (3 : Fin 4).val < f.a.toNat ∧
     (5 : Fin 17).val = f.t.toNat / 10 ^ (f.a.toNat - 1 - (3 : Fin 4).val) % 10) ∧
    (let f : Fields := ⟨1, 0, 0, 0⟩
     1 ≤ f.a.toNat ∧ f.a.toNat ≤ 4 ∧ f.b = 0 ∧ f.c = 0 ∧ f.t.toNat < 65536 ∧
     f.a.toNat ≤ (1 : Fin 4).val) := by decide

theorem witness_NumberTruncatesToLowDigits :
    (1 ≤ 1 ∧ 1 ≤ 4 ∧ 65535 < 65536) ∧ after (.number ⟨4, 0, 0, 65535⟩) State.reset words =
      some [0x6402, 0x2C02, 0x3600, 0xA402] := by decide

theorem witness_MessageWritesItsRow :
    board.fault = false ∧ (⟨3, 0, 0, 0⟩ : Fields).a.toNat = (3 : Fin 4).val ∧
    (⟨3, 0, 0, 0⟩ : Fields).b = 0 ∧ (⟨3, 0, 0, 0⟩ : Fields).c = 0 ∧ (⟨3, 0, 0, 0⟩ : Fields).t = 0 := by decide

theorem witness_ColonCommandsComplete :
    board.fault = false ∧ (⟨1, 0, 0, 0⟩ : Fields).a = (if true then 1 else 0) ∧
    (⟨0, 0, 0, 0⟩ : Fields).a = (if false then 1 else 0) ∧ (⟨0, 0, 0, 0⟩ : Fields).b = 0 ∧
    (⟨0, 0, 0, 0⟩ : Fields).c = 0 ∧ (⟨0, 0, 0, 0⟩ : Fields).t = 0 := by decide

theorem witness_ColonTouchesOnlyColonBits :
    board.Inv ∧ (Instr.colon ⟨1, 0, 0, 0⟩).opcode.toNat ∈ [0x13, 0x14] ∧
    ∃ t, exec (.colon ⟨1, 0, 0, 0⟩) board = .next t ∧ t.fault = false :=
  ⟨witness_board_inv, by decide, _, rfl, by decide⟩

theorem witness_DigitWritesDarkenTheColon :
    board.cfg.Legal ∧ board.fault = false ∧
    (∃ t, exec (.digit ⟨1, 5, 0, 0⟩) board = .next t ∧ t.fault = false) ∧
    (⟨1, 5, 0, 0⟩ : Fields).a.toNat = (1 : Fin 4).val ∧
    (∃ t, exec (.number ⟨4, 0, 0, 1234⟩) board = .next t ∧ t.fault = false) ∧
    (3 : Fin 4).val < (⟨4, 0, 0, 1234⟩ : Fields).a.toNat ∧
    (∃ t, exec (.message ⟨1, 0, 0, 0⟩) board = .next t ∧ t.fault = false) :=
  ⟨by decide, by decide, ⟨_, rfl, by decide⟩, by decide, ⟨_, rfl, by decide⟩, by decide, _, rfl, by decide⟩

theorem witness_DbreadReturnsTheWord :
    board.fault = false ∧ (⟨3, 0, 0, 0⟩ : Fields).a.toNat = (3 : Fin 4).val ∧
    (⟨3, 0, 0, 0⟩ : Fields).b = 0 ∧ (⟨3, 0, 0, 0⟩ : Fields).c = 0 ∧ (⟨3, 0, 0, 0⟩ : Fields).t = 0 := by decide

theorem witness_RelayNumberMap :
    [1, 7].all (fun n : Byte => decide (1 ≤ n.toNat ∧ n.toNat ≤ 7)) = true ∧
    [0, 8, 255].all (fun n : Byte => decide (n.toNat = 0 ∨ 8 ≤ n.toNat)) = true := by decide

theorem witness_RsetUpdatesUnderTheMask :
    board.fault = false ∧ (⟨0x0F, 0xF5, 0, 0⟩ : Fields).c = 0 ∧ (⟨0x0F, 0xF5, 0, 0⟩ : Fields).t = 0 := by decide

theorem witness_RsetnSetsOneRelayBit :
    board.fault = false ∧ (⟨255, 1, 0, 0⟩ : Fields).b = (if true then 1 else 0) ∧
    (⟨0, 0, 0, 0⟩ : Fields).b = (if false then 1 else 0) ∧ (⟨255, 1, 0, 0⟩ : Fields).c = 0 ∧
    (⟨255, 1, 0, 0⟩ : Fields).t = 0 := by decide

theorem witness_RelayReadsComplete :
    board.fault = false ∧ (⟨8, 0, 0, 0⟩ : Fields).b = 0 ∧ (⟨8, 0, 0, 0⟩ : Fields).c = 0 ∧
    (⟨8, 0, 0, 0⟩ : Fields).t = 0 := by decide

theorem witness_OutputEnableGatesTheRelays :
    board.fault = false ∧ (⟨0, 0, 0, 0⟩ : Fields).a = 0 ∧ (⟨0, 0, 0, 0⟩ : Fields).b = 0 ∧
    (⟨0, 0, 0, 0⟩ : Fields).c = 0 ∧ (⟨0, 0, 0, 0⟩ : Fields).t = 0 := by decide

theorem witness_ChainAfterAFrame : board.pins.clk = false := by decide

theorem witness_RefreshDrivesFourFrames :
    board.fault = false ∧ board.pins.clk = false ∧ board.pins.latch = true ∧
    (⟨0, 0, 0, 0⟩ : Fields).a = 0 ∧ (⟨0, 0, 0, 0⟩ : Fields).b = 0 ∧ (⟨0, 0, 0, 0⟩ : Fields).c = 0 ∧
    (⟨0, 0, 0, 0⟩ : Fields).t = 0 := by decide

theorem witness_RefreshShowsOneDigitAtATime : board.Inv := witness_board_inv

/-- The boot order of R129 meets the hypotheses; a RENABLE before any REFRESH does not. -/
theorem witness_EnableAfterRefreshHidesPowerOnLatch :
    (let es : List Input := [.command 0x2101010000000000, .command 0x3000000000000000, .edge 9,
       .command 0x2500000000000000]
     (∀ e ∈ es, e.ofProgram = true) ∧ enablesAfterRefresh es = true) ∧
    enablesAfterRefresh [.command 0x2500000000000000, .command 0x3000000000000000] = false := by decide

theorem witness_TimerWritesComplete :
    board.fault = false ∧ board.timers[(⟨0, 0x0A, 0, 7⟩ : Fields).a.toNat]? = some ⟨0x0A, 1000, 5000, true⟩ ∧
    board.timers[(⟨7, 0, 0, 0⟩ : Fields).a.toNat]? = some ⟨0, 0, 0, false⟩ ∧
    (⟨7, 0, 0, 0⟩ : Fields).b = 0 ∧ (⟨7, 0, 0, 0⟩ : Fields).c = 0 ∧ (⟨7, 0, 0, 0⟩ : Fields).t = 0 := by decide

/-- Elapsed 1001 and elapsed 1000 on a timeout of 1000, and an Idle timer. -/
theorem witness_TtickExpiresStrictly :
    let tm : Timer := ⟨0x0A, 1000, 5000, true⟩
    board.fault = false ∧ board.timers[(⟨0, 0, 0, 6001⟩ : Fields).a.toNat]? = some tm ∧ tm.active = true ∧
    tm.timeoutMs.toNat < ((6001 : Word32) - tm.startTimestamp).toNat ∧
    ((6000 : Word32) - tm.startTimestamp).toNat ≤ tm.timeoutMs.toNat ∧
    board.timers[(⟨7, 0, 0, 0⟩ : Fields).a.toNat]? = some ⟨0, 0, 0, false⟩ := by decide

/-- Elapsed 1000, elapsed 1003 (three beyond), and an Idle timer. -/
theorem witness_TimerReadsComplete :
    let tm : Timer := ⟨0x0A, 1000, 5000, true⟩
    board.fault = false ∧ board.timers[(⟨0, 0, 0, 6000⟩ : Fields).a.toNat]? = some tm ∧ tm.active = true ∧
    ((6000 : Word32) - tm.startTimestamp).toNat ≤ tm.timeoutMs.toNat ∧
    ((6003 : Word32) - tm.startTimestamp).toNat = tm.timeoutMs.toNat + 3 ∧
    board.timers[(⟨7, 0, 0, 0⟩ : Fields).a.toNat]? = some ⟨0, 0, 0, false⟩ ∧
    (⟨7, 0, 0, 0⟩ : Fields).t = 0 := by decide

theorem witness_DelayOffRunsItsTimeout :
    let tm : Timer := ⟨0x0A, 1000, 5000, true⟩
    board.fault = false ∧ board.timers[(0 : Byte).toNat]? = some tm ∧
    (1000 : Word32).toNat ≤ tm.timeoutMs.toNat ∧ tm.timeoutMs.toNat < (1001 : Word32).toNat := by decide

theorem witness_TimersAreIndependent :
    (Instr.tstart ⟨0, 0, 0, 9⟩).opcode.toNat ∈ [0x40, 0x41, 0x42, 0x43, 0x44, 0x45] ∧
    (let s' : State := { board with timers := [⟨0x0A, 1000, 5000, true⟩], fAcc := 1 }
     board.fault = s'.fault ∧ board.rb = s'.rb ∧
     board.timers[(Instr.tstart ⟨0, 0, 0, 9⟩).fields.a.toNat]? = some ⟨0x0A, 1000, 5000, true⟩ ∧
     s'.timers[(Instr.tstart ⟨0, 0, 0, 9⟩).fields.a.toNat]? = some ⟨0x0A, 1000, 5000, true⟩ ∧
     (next? (exec (.tstart ⟨0, 0, 0, 9⟩) board)).isSome ∧ (next? (exec (.tstart ⟨0, 0, 0, 9⟩) s')).isSome) := by
  decide

theorem witness_FsampleUpdatesTheAverage :
    board.fault = false ∧ board.fSp = board.fAcc >>> board.cfg.smoothShift.val ∧
    board.fAcc.toNat + ((112000 : Word32) - board.fLast).toNat - board.fSp.toNat < 2 ^ 32 := by decide

/-- The interval of 10000 that `board` has settled at: the accumulator in its band. -/
theorem witness_SmoothingConverges :
    board.fSp = board.fAcc >>> board.cfg.smoothShift.val ∧
    ((10000 : Word32).toNat + 1) * 2 ^ board.cfg.smoothShift.val ≤ 2 ^ 32 ∧
    (10000 : Word32).toNat * 2 ^ board.cfg.smoothShift.val ≤ board.fAcc.toNat ∧
    board.fAcc.toNat ≤
      (10000 : Word32).toNat * 2 ^ board.cfg.smoothShift.val + 2 ^ board.cfg.smoothShift.val - 1 := by decide

/-- Silence at the threshold and above it; each state before with periods at the ends of its clauses. -/
theorem witness_FtickTransitions :
    board.fault = false ∧ board.thLower.toNat < board.thUpper.toNat ∧
    board.thUpper.toNat < board.thStopped.toNat ∧
    board.thStopped.toNat < ((600001 : Word32) - board.fLast).toNat ∧
    ((600000 : Word32) - board.fLast).toNat ≤ board.thStopped.toNat ∧
    [(FreqState.stopped, (20000 : Word32)), (.stopped, 20001), (.stopped, 499999), (.stopped, 500000),
     (.low, 9999), (.low, 10000), (.low, 500000), (.low, 500001),
     (.high, 20000), (.high, 20001), (.high, 500000), (.high, 500001)].map
      (fun c => after (.ftick ⟨0, 0, 0, 600000⟩) { board with fState := c.1, fSp := c.2 } (·.fState)) =
    [some .high, some .low, some .low, some .stopped,
     some .high, some .low, some .low, some .stopped,
     some .high, some .low, some .low, some .stopped] := by decide

theorem witness_HysteresisLaws :
    board.fault = false ∧ board.thresholdsOrdered = true ∧
    (∃ t, exec (.ftick ⟨0, 0, 0, 600000⟩) board = .next t ∧ t.fault = false) ∧
    ((600000 : Word32) - board.fLast).toNat ≤ board.thStopped.toNat ∧
    board.thLower.toNat ≤ board.fSp.toNat ∧ board.fSp.toNat ≤ board.thUpper.toNat :=
  ⟨by decide, by decide, ⟨_, rfl, by decide⟩, by decide, by decide, by decide⟩

theorem witness_StartUpTransient :
    instanceT.thLowerInit.toNat < instanceT.thUpperInit.toNat ∧
    instanceT.thUpperInit.toNat < instanceT.thStoppedInit.toNat ∧
    (500000 : Word32).toNat ≤ instanceT.thStoppedInit.toNat ∧
    instanceT.thStoppedInit.toNat < (500001 : Word32).toNat := by decide

/-- Every selector in range. -/
theorem witness_ThresholdWriteAndReadback :
    board.fault = false ∧ (⟨6, 0, 0, 0⟩ : Fields).b = 0 ∧ (⟨6, 0, 0, 0⟩ : Fields).c = 0 ∧
    (⟨6, 0, 0, 0⟩ : Fields).t = 0 ∧
    [0, 1, 2, 3, 4, 5, 6].map (fun n => (⟨BitVec.ofNat 8 n, 0, 0, 0⟩ : Fields).a.toNat) = [0, 1, 2, 3, 4, 5, 6] := by
  decide

theorem witness_StatusReportsTheFlags :
    (let f : Fields := ⟨0, 0, 0, 0⟩
     f.a = 0 ∧ f.b = 0 ∧ f.c = 0 ∧ f.t = 0) ∧
    (let f : Fields := ⟨0, 0, 1, 0⟩
     ¬(f.a = 0 ∧ f.b = 0 ∧ f.c = 0 ∧ f.t = 0)) := by decide

/-- The first and the last event of a list are commands, with an edge between. -/
theorem witness_RunsRecordEveryResult :
    let es : List Input := [.command 0x2408000000000000, .edge 8000, .command 0x1000110000000000]
    es[0]? = some (.command 0x2408000000000000) ∧ es[2]? = some (.command 0x1000110000000000) := by decide

end Sys2Proof.Tests
end

section
/-! The state family: the bits of the tables of a legal parameter set (10_state.md R18 to R24), and the value
of every register after reset (R46). -/

namespace Sys2Proof

/-- Every segment is in the list of segments. -/
theorem Segment.mem_all (seg : Segment) : seg ∈ Segment.all := by cases seg <;> decide

/-- A bit of an OR of bits is set exactly when it is listed (R11). -/
theorem orBits_getLsbD (l : List (Fin 16)) (i : Fin 16) : (orBits l).getLsbD i.val = decide (i ∈ l) := by
  induction l with
  | nil => simp [orBits]
  | cons j l ih =>
    have hcons : orBits (j :: l) = BitVec.twoPow 16 j.val ||| orBits l := rfl
    rw [hcons, BitVec.getLsbD_or, ih, BitVec.getLsbD_twoPow]
    simp [Fin.ext_iff, eq_comm]

namespace Params

variable {p : Params}

/-- POL_MASK holds the bit of every segment (R22). -/
theorem polMask_getLsbD_seg (p : Params) (seg : Segment) :
    p.polMask.getLsbD (p.segBit.bit seg).val = true := by
  rw [polMask, orBits_getLsbD]
  exact decide_eq_true (List.mem_map_of_mem seg.mem_all)

/-- A lit bit is a segment bit (R22). -/
theorem lit_and_polMask (p : Params) (k : Fin 17) : p.lit k &&& p.polMask = p.lit k := by
  apply BitVec.eq_of_getLsbD_eq
  intro i hi
  have hlit := orBits_getLsbD ((p.glyph.get k).map p.segBit.bit) ⟨i, hi⟩
  rw [BitVec.getLsbD_and, Bool.and_eq_left_iff_imp]
  intro hset
  obtain ⟨seg, -, hseg⟩ := List.mem_map.1 (of_decide_eq_true (hlit.symm.trans hset))
  have hpol := p.polMask_getLsbD_seg seg
  rwa [hseg] at hpol

/-- An entry has no bit outside the segment bits (R22). -/
theorem ct_and_polMask (p : Params) (k : Fin 17) : p.ct k &&& p.polMask = p.ct k := by
  apply BitVec.eq_of_getLsbD_eq
  intro i hi
  have hlit := congrArg (·.getLsbD i) (p.lit_and_polMask k)
  simp only [BitVec.getLsbD_and] at hlit
  rw [ct, BitVec.getLsbD_and, BitVec.getLsbD_xor, ← hlit]
  cases p.polMask.getLsbD i <;> simp

/-- An entry has a 0 in every word that shares no bit with the segment bits. -/
theorem ct_and_eq_zero (k : Fin 17) {w : DisplayWord} (hw : p.polMask &&& w = 0) : p.ct k &&& w = 0 := by
  rw [← ct_and_polMask, BitVec.and_assoc, hw]
  exact BitVec.and_zero

/-- No unused bit drives a segment (R18). -/
theorem polMask_and_unusedMask (p : Params) : p.polMask &&& p.unusedMask = 0 := by
  apply BitVec.eq_of_getLsbD_eq
  intro i hi
  simp only [unusedMask, BitVec.getLsbD_and, BitVec.getLsbD_not, BitVec.getLsbD_or]
  cases p.polMask.getLsbD i <;> simp

/-- The segments' pins are distinct (R19). -/
theorem Legal.segBit_injective (h : p.Legal) : Function.Injective p.segBit.bit := by
  obtain ⟨hpins, -⟩ := h
  exact fun s t hst =>
    List.inj_on_of_nodup_map (List.nodup_append.1 hpins).1 s.mem_all t.mem_all hst

/-- No select line is driven by a segment's pin (R19). -/
theorem Legal.segBit_ne_selBit (h : p.Legal) (seg : Segment) (q : Fin 4) :
    p.segBit.bit seg ≠ p.selBit.get q := by
  obtain ⟨hpins, -⟩ := h
  obtain ⟨-, -, hdisj⟩ := List.nodup_append.1 hpins
  have hq : p.selBit.get q ∈ p.selBit.toList := Vector.mem_toList_iff.2 (Vector.getElem_mem q.isLt)
  exact hdisj _ (List.mem_map_of_mem seg.mem_all) _ hq

/-- No glyph has a decimal point (R22). -/
theorem Legal.dp_notMem_glyph (h : p.Legal) (k : Fin 17) : Segment.dp ∉ p.glyph.get k := by
  obtain ⟨-, -, hdp, -⟩ := h
  exact hdp _ (Vector.mem_toList_iff.2 (Vector.getElem_mem k.isLt))

/-- A segment's bit is lit exactly when the glyph has the segment (R22). -/
theorem Legal.lit_getLsbD_seg (h : p.Legal) (k : Fin 17) (seg : Segment) :
    (p.lit k).getLsbD (p.segBit.bit seg).val = (p.glyph.get k).contains seg := by
  rw [lit, orBits_getLsbD, Bool.eq_iff_iff, decide_eq_true_iff, List.mem_map_of_injective h.segBit_injective,
    List.contains_iff_mem]

/-- A lit segment is 0 and a dark one 1 (R22). -/
theorem Legal.ct_getLsbD_seg (h : p.Legal) (k : Fin 17) (seg : Segment) :
    (p.ct k).getLsbD (p.segBit.bit seg).val = !(p.glyph.get k).contains seg := by
  rw [ct, BitVec.getLsbD_xor, polMask_getLsbD_seg, h.lit_getLsbD_seg, Bool.true_xor]

/-- No select bit drives a segment (R19, R24). -/
theorem Legal.polMask_and_dst (h : p.Legal) (q : Fin 4) : p.polMask &&& p.dst q = 0 := by
  have hnot : p.selBit.get q ∉ Segment.all.map p.segBit.bit := by
    rw [List.mem_map]
    rintro ⟨seg, -, hseg⟩
    exact h.segBit_ne_selBit seg q hseg
  rw [dst, BitVec.and_twoPow, polMask, orBits_getLsbD, decide_eq_false hnot]
  rfl

/-- The same of the four select bits together (R20). -/
theorem Legal.polMask_and_selMaskAll (h : p.Legal) : p.polMask &&& p.selMaskAll = 0 := by
  simp only [selMaskAll, BitVec.and_or_distrib_left, h.polMask_and_dst]
  rfl

/-- The decimal point of every entry is dark (R22, R25). -/
theorem Legal.ct_and_dpMask (h : p.Legal) (k : Fin 17) : p.ct k &&& p.dpMask = p.dpMask := by
  have hdark : (p.ct k).getLsbD (p.segBit.bit .dp).val = true := by
    rw [h.ct_getLsbD_seg]
    simp [h.dp_notMem_glyph k]
  rw [dpMask, BitVec.and_twoPow, if_pos hdark]

end Params

namespace Machine

/-- Every word of DB is the blank symbol with its select bit after reset (R46). -/
theorem State.powerUp_db_get (p : Params) (ch : Chain) (q : Fin 4) :
    (State.powerUp p ch).db.get q = p.ct 10 ||| p.dst q := by
  match q with
  | 0 | 1 | 2 | 3 => rfl

/-- The pool has N_TIMERS timers after reset (R31, R46). -/
theorem initialTimers_length (p : Params) : (initialTimers p).length = p.nTimers := List.length_map _

/-- Each timer of the pool has its own configuration after reset, and is Idle (R46). -/
theorem initialTimers_getElem? {p : Params} {n : Nat} {init : TimerInit} (h : p.timerInit[n]? = some init) :
    (initialTimers p)[n]? = some ⟨init.relayMask, init.timeoutMs, 0, false⟩ := by
  rw [initialTimers, List.getElem?_map, h, Option.map_some]

/-- Settles O25: the segment bits one by one, and the select bits and the unused bits because an entry has
no bit outside the segment bits. -/
theorem characterTableEntries : Obligations.CharacterTableEntries := fun p k hp =>
  ⟨hp.ct_getLsbD_seg k, Params.ct_and_eq_zero k hp.polMask_and_selMaskAll,
    Params.ct_and_eq_zero k p.polMask_and_unusedMask, hp.ct_and_dpMask k⟩

/-- Settles O13: DB and the timers by their lemmas, every other register is written out in `powerUp`. -/
theorem resetValues : Obligations.ResetValues := fun p ch =>
  ⟨State.powerUp_db_get p ch, initialTimers_length p, fun _ _ h => initialTimers_getElem? h, rfl, rfl⟩

end Machine

end Sys2Proof
end

section
/-! The encoding family: the decoder's verdicts (30_encoding.md R61, R64, R70), what the command port does with
an illegal opcode (R66) and with a reserved bit (R67), and the pseudo-instructions (R72). -/

namespace Sys2Proof

/-- The word with a command's OP and fields decodes to that command, whatever the fields hold (R64, R70). -/
theorem decode_eq_term {w : CommandWord} {i : Instr} (hop : i.opcode = opByte w)
    (hfields : i.fields = fieldsOf w) : decode w = .term i := by
  unfold decode
  rw [← hop, ← hfields]
  cases i <;> rfl

/-- The two verdicts of the decoder (R70). -/
theorem decode_cases (w : CommandWord) :
    (∃ i : Instr, decode w = .term i ∧ i.opcode = opByte w ∧ i.fields = fieldsOf w) ∨
      decode w = .illegalOpcode (opByte w) := by
  unfold decode
  split
  -- the last row of the decoder, where OP names no command
  case h_26 => exact .inr rfl
  all_goals
    next hop => exact .inl ⟨_, rfl, BitVec.eq_of_toNat_eq hop.symm, rfl⟩

/-- A word is its OP and its fields, laid out again (R61). -/
theorem assembleWord_opByte_fieldsOf (w : CommandWord) : assembleWord (opByte w) (fieldsOf w) = w := by
  simp only [assembleWord, opByte, fieldsOf]
  iterate 4 rw [BitVec.extractLsb'_append_extractLsb'_eq_extractLsb' (by rfl)]
  exact BitVec.extractLsb'_eq_self

/-- The word with a command's OP and fields is the command's word (R61, R64). -/
theorem encode_eq_word {w : CommandWord} {i : Instr} (hop : i.opcode = opByte w)
    (hfields : i.fields = fieldsOf w) : encode i = w := by
  rw [encode, hop, hfields, assembleWord_opByte_fieldsOf]

/-- The commands of agent C, in the order of the opcode map (R64). -/
def portCommands : List (Fields → Instr) :=
  [.digit, .number, .message, .colon, .tcolon, .dbread,
   .rset, .rsetn, .rget, .rison, .rmask, .renable, .rdisable,
   .refresh,
   .tcfg, .tstart, .ttick, .tstop, .trem, .tactive,
   .ftick, .fsetth, .fread,
   .status]

/-- Each is agent C's and carries the fields it is given. -/
theorem portCommands_agent_fields (f : Fields) :
    ∀ mk ∈ portCommands, (mk f).agent = .C ∧ (mk f).fields = f := by
  simp [portCommands, Instr.agent, Instr.fields]

namespace Machine

/-- The rows of `reservedZeroMasks` are the commands of agent C with their reserved bits, laid out in a word
as the fields are (R61, R67). -/
theorem reservedZeroMasks_eq_map (f : Fields) :
    reservedZeroMasks = portCommands.map fun mk => ((mk f).opcode, assembleWord 0 (mk f).reservedMask) := by
  simp only [portCommands, Instr.opcode, Instr.reservedMask, List.map_cons, List.map_nil]
  decide

/-- The port runs the command that a word decodes to (R114). -/
theorem presentCommand_term {w : CommandWord} {i : Instr} (hw : decode w = .term i) (hC : i.agent = .C)
    (s : State) : presentCommand w s = exec i s := by
  simp only [presentCommand, hw, hC]

/-- The port takes a word whose OP is no command's of agent C as illegal, FSAMPLE's among them (R66). -/
theorem presentCommand_illegal {w : CommandWord} (hno : ∀ i : Instr, i.agent = .C → i.opcode ≠ opByte w)
    (s : State) : presentCommand w s = illegalOnPort s := by
  rcases decode_cases w with ⟨i, hw, hop, -⟩ | hw
  · cases hagent : i.agent with
    | C => exact absurd hop (hno i hagent)
    | E => simp only [presentCommand, hw, hagent]
  · simp only [presentCommand, hw]

/-- An illegal word faults on a block that is not halted (R66, R113). -/
theorem illegalOnPort_running {s : State} (hf : s.fault = false) :
    illegalOnPort s = .next (s.enterFault .illegalOpcode) := by
  simp [illegalOnPort, hf, raiseFault]

/-- An edge is sampled by a block that is not halted (R104). -/
theorem presentEdge_running {s : State} (hf : s.fault = false) (now : Word32) :
    presentEdge now s = .next (s.sample now) := by
  change execFsample (edgeFields now) s = .next (s.sample now)
  simp [execFsample, hf, edgeFields]

/-- Every command of agent C faults on a reserved bit, before its own rule is reached (R67, R114). -/
theorem exec_reserved {i : Instr} {s : State} (hf : s.fault = false) (hC : i.agent = .C)
    (hr : i.reservedClear = false) : exec i s = .next (s.enterFault .reservedField) := by
  cases i with
  | fsample f => cases hC
  | status f =>
    change execStatus f s = _
    simp [execStatus, hr, hf, raiseFault]
  | _ f => exact checked_reserved hf hr

/-- Settles O2: the row of the OP with the word's fields decodes, and the decoder has no third verdict. -/
theorem decoderIsTotalAndKeepsFields : Obligations.DecoderIsTotalAndKeepsFields := fun w =>
  ⟨fun _ hop hfields => decode_eq_term hop hfields, decode_cases w⟩

/-- Settles O5: no command of agent C has an OP in the seven ranges, so the port finds the word illegal; an
edge is sampled and leaves FAULT as it was. -/
theorem illegalOpcodesFault : Obligations.IllegalOpcodesFault := by
  refine ⟨fun s rest w hin hf hrange => ?_, fun s rest now hin hf => ?_⟩
  · have hno : ∀ i : Instr, i.agent = .C → i.opcode ≠ opByte w := by
      intro i hC hop
      rw [← hop] at hrange
      cases i with
      | fsample f => cases hC
      | _ f => revert hrange; simp only [Instr.opcode]; decide
    calc step s = presentCommand w { s with inputs := rest } := step_cons hin
      _ = illegalOnPort { s with inputs := rest } := presentCommand_illegal hno _
      _ = .next (State.enterFault .illegalOpcode { s with inputs := rest }) := illegalOnPort_running hf
  · have hstep : step s = .next (State.sample now { s with inputs := rest }) :=
      (step_cons hin).trans (presentEdge_running (s := { s with inputs := rest }) hf now)
    exact ⟨_, hstep, hf⟩

/-- Settles O7: the row of the table names the command that the word decodes to, and the row's mask meets
the word exactly when a reserved bit of the command is 1. -/
theorem reservedBitsFault : Obligations.ReservedBitsFault := by
  refine ⟨fun s rest w row hin hf hrow hop hbit => ?_, fun s f hf hwide => ?_⟩
  · rw [reservedZeroMasks_eq_map (fieldsOf w)] at hrow
    obtain ⟨mk, hmk, rfl⟩ := List.mem_map.1 hrow
    obtain ⟨hC, hfields⟩ := portCommands_agent_fields (fieldsOf w) mk hmk
    have hr : (mk (fieldsOf w)).reservedClear = false := by
      have hmask := Laws.encode_and_mask (mk (fieldsOf w)) (mk (fieldsOf w)).reservedMask
      rw [encode_eq_word hop.symm hfields] at hmask
      exact Bool.eq_false_iff.2 fun hclear => hbit (hmask.2 hclear)
    calc step s = presentCommand w { s with inputs := rest } := step_cons hin
      _ = exec (mk (fieldsOf w)) { s with inputs := rest } :=
        presentCommand_term (decode_eq_term hop.symm hfields) hC _
      _ = .next (State.enterFault .reservedField { s with inputs := rest }) := exec_reserved hf hC hr
  · have hr : (Instr.number f).reservedClear = false := by
      rw [Bool.eq_false_iff, ne_eq, Instr.reservedClear_number]
      omega
    exact exec_reserved hf rfl hr

/-- RALLON and RALLOFF assemble to the words of their expansions (R72). -/
theorem assembleLine_allRelays :
    assembleLine ['R', 'A', 'L', 'L', 'O', 'N'] = .event (.command (encode Pseudo.rallon.expand)) ∧
    assembleLine ['R', 'A', 'L', 'L', 'O', 'F', 'F'] = .event (.command (encode Pseudo.ralloff.expand)) :=
  ⟨rfl, rfl⟩

/-- COLON ON and COLON OFF assemble to the words of their expansions (R72). -/
theorem assembleLine_colonNames :
    assembleLine ['C', 'O', 'L', 'O', 'N', ' ', 'O', 'N'] =
      .event (.command (encode Pseudo.colonOn.expand)) ∧
    assembleLine ['C', 'O', 'L', 'O', 'N', ' ', 'O', 'F', 'F'] =
      .event (.command (encode Pseudo.colonOff.expand)) :=
  ⟨rfl, rfl⟩

/-- Settles O58: the expansions with operands are the rows of `Pseudo.expand`, the four lines are assembled. -/
theorem pseudoInstructionsExpand : Obligations.PseudoInstructionsExpand :=
  ⟨fun _ => rfl, fun _ _ => rfl, fun _ => rfl, fun _ => rfl,
    assembleLine_allRelays.1, assembleLine_allRelays.2,
    assembleLine_colonNames.1, assembleLine_colonNames.2⟩

end Machine

end Sys2Proof
end

section
/-! The relay family: the relay-number map (41_relay.md R81). -/

namespace Sys2Proof.Machine

/-- A relay number of the board's seven names its own bit (R81). -/
theorem relayMask_of_mem_range {n : Byte} (hn : 1 ≤ n.toNat ∧ n.toNat ≤ 7) :
    relayMask n = BitVec.twoPow 8 n.toNat := if_pos hn

/-- Every other relay number names bit 0 (R81). -/
theorem relayMask_of_notMem_range {n : Byte} (hn : ¬ (1 ≤ n.toNat ∧ n.toNat ≤ 7)) :
    relayMask n = BitVec.twoPow 8 0 := if_neg hn

/-- Settles O35: the numbers 0 and 8 to 255 are those outside 1 to 7. -/
theorem relayNumberMap : Obligations.RelayNumberMap := fun _ =>
  ⟨relayMask_of_mem_range, fun hn => relayMask_of_notMem_range (by omega)⟩

end Sys2Proof.Machine
end

section
/-! The timer family: elapsed time across a wrap of the counter (43_timer.md R95). -/

namespace Sys2Proof.Machine

/-- The counter reading a real interval after the start gives back that interval modulo 2^32 (R95). -/
theorem elapsed_add_ofNat (start : Word32) (interval : Nat) :
    elapsed (start + BitVec.ofNat 32 interval) start = BitVec.ofNat 32 interval := by
  rw [elapsed, BitVec.add_comm, BitVec.add_sub_cancel]

/-- With no wrap between start and reading, elapsed time is the difference of the readings (R95). -/
theorem elapsed_toNat_of_le {now start : Word32} (h : start.toNat ≤ now.toNat) :
    (elapsed now start).toNat = now.toNat - start.toNat :=
  BitVec.toNat_sub_of_le h

/-- A reading below the start means one wrap, which adds the counter's period (R95). -/
theorem elapsed_toNat_of_lt {now start : Word32} (h : now.toNat < start.toNat) :
    (elapsed now start).toNat = now.toNat + 2 ^ 32 - start.toNat := by
  rw [elapsed, BitVec.toNat_sub_of_lt h]
  omega

/-- Settles O45: exact for an interval that is its own remainder modulo 2^32, and the two sides of a wrap. -/
theorem elapsedIsExactAcrossAWrap : Obligations.ElapsedIsExactAcrossAWrap := by
  intro start now
  constructor
  · intro interval
    rw [elapsed_add_ofNat, BitVec.toNat_ofNat]
    exact Nat.mod_eq_iff_lt (by decide)
  · split
    next hle => exact elapsed_toNat_of_le hle
    next hlt => exact elapsed_toNat_of_lt (Nat.lt_of_not_le hlt)

end Sys2Proof.Machine
end

section
/-! The status family: the status word bit by bit, and the three answers of STATUS (45_status.md R111). -/

namespace Sys2Proof.Machine

/-- The layout of the status word, bit by bit: 25 zeros, COLON, OE, FAULT, CAUSE (R111). -/
theorem statusWord_getLsbD (s : State) (i : Nat) :
    (statusWord s).getLsbD i =
      if i < 4 then s.cause.getLsbD i
      else if i = 4 then s.fault
      else if i = 5 then s.oe
      else if i = 6 then s.colon
      else false := by
  rw [statusWord]
  iterate 4 rw [BitVec.getLsbD_append]
  match i with
  | 0 | 1 | 2 | 3 | 4 | 5 | 6 | n + 7 => simp

/-- The low four bits of the status word are CAUSE (R111). -/
theorem statusWord_extractLsb'_cause (s : State) : (statusWord s).extractLsb' 0 4 = s.cause :=
  BitVec.extractLsb'_append_eq_right

/-- The status word has no bit above COLON (R111). -/
theorem statusWord_ushiftRight_seven (s : State) : statusWord s >>> 7 = 0 := by
  apply BitVec.eq_of_getLsbD_eq
  intro i _
  have hhigh : (statusWord s).getLsbD (7 + i) = false := by
    rw [statusWord_getLsbD]
    iterate 4 rw [if_neg (by omega)]
  rw [BitVec.getLsbD_ushiftRight, hhigh]
  exact BitVec.getLsbD_zero.symm

/-- Right after a reset only OE is 1 in the status word (R46, R111). -/
theorem statusWord_powerUp (p : Params) (ch : Chain) : statusWord (State.powerUp p ch) = 0x20 := by
  simp only [statusWord, State.powerUp]
  decide

/-- STATUS with its operand fields 0 answers the status word, halted or not (R111, R116). -/
theorem exec_status_clear {f : Fields} (hr : (Instr.status f).reservedClear = true) (s : State) :
    exec (.status f) s = .next (s.setResult (statusWord s)) := by
  change execStatus f s = _
  simp [execStatus, hr, complete]

/-- A halted block ignores STATUS with a reserved bit set (R111, R116). -/
theorem exec_status_reserved_halted {f : Fields} {s : State} (hf : s.fault = true)
    (hr : (Instr.status f).reservedClear = false) : exec (.status f) s = .next (s.setResult 0) := by
  change execStatus f s = _
  simp [execStatus, hr, hf, ignored]

/-- Settles O57: the clear form completes with the status word, read by its layout; FAULT decides whether the
reserved form is ignored or faults. -/
theorem statusReportsTheFlags : Obligations.StatusReportsTheFlags := by
  refine ⟨rfl, fun s f ha hb hc ht => ?_, fun s f hne => ?_, fun p ch => ?_⟩
  · have hr := (Instr.reservedClear_status f).2 ⟨ha, hb, hc, ht⟩
    exact ⟨s.setResult (statusWord s), exec_status_clear hr s, rfl, statusWord_extractLsb'_cause s,
      statusWord_getLsbD s 4, statusWord_getLsbD s 5, statusWord_getLsbD s 6,
      statusWord_ushiftRight_seven s⟩
  · have hr := Bool.eq_false_iff.2 fun hclear => hne ((Instr.reservedClear_status f).1 hclear)
    split
    next hf => exact exec_status_reserved_halted hf hr
    next hf => exact exec_reserved (Bool.eq_false_iff.2 hf) rfl hr
  · calc exec (.status ⟨0, 0, 0, 0⟩) (State.powerUp p ch)
      _ = .next ((State.powerUp p ch).setResult (statusWord (State.powerUp p ch))) :=
        exec_status_clear rfl _
      _ = .next { State.powerUp p ch with result := 0x20 } := by
        rw [statusWord_powerUp, State.setResult]

end Sys2Proof.Machine
end

section
/-! The exception family (60_exceptions.md R113 to R117): a halted block, the check order of a command word
against the table of causes `firstFault`, and what a fault leaves unchanged. -/

namespace Sys2Proof

/-- The four STATUS fields are 0 in the one form that the halted block executes (R116). -/
theorem Instr.status_eq_of_reservedClear {f : Fields} (hr : (Instr.status f).reservedClear = true) :
    Instr.status f = .status ⟨0, 0, 0, 0⟩ := by
  obtain ⟨a, b, c, t⟩ := f
  obtain ⟨rfl, rfl, rfl, rfl⟩ := (Instr.reservedClear_status _).1 hr
  rfl

/-- FSAMPLE's opcode is no command's of agent C (R64, R66). -/
theorem Instr.opcode_ne_of_agent {i j : Instr} (hi : i.agent = .C) (hj : j.agent = .E) :
    i.opcode ≠ j.opcode := by
  cases j with
  | fsample g =>
    cases i with
    | fsample f => cases hi
    | _ f => simp only [Instr.opcode]; decide
  | _ g => cases hj

/-- A word with the OP of a command decodes to a command with that OP and the word's fields (R64, R70). -/
theorem decode_of_opcode {w : CommandWord} {i : Instr} (hop : i.opcode = opByte w) :
    ∃ j : Instr, decode w = .term j ∧ j.opcode = opByte w ∧ j.fields = fieldsOf w := by
  rcases decode_cases w with hterm | hillegal
  · exact hterm
  · unfold decode at hillegal
    rw [← hop] at hillegal
    cases i with
    | _ f => cases hillegal

/-- A reserved bit that is 1, in the words of the table of causes (R67, R113). -/
theorem Instr.reservedClear_eq_false_iff (i : Instr) :
    i.reservedClear = false ↔
      i.fields.a &&& i.reservedMask.a ≠ 0 ∨ i.fields.b &&& i.reservedMask.b ≠ 0 ∨
        i.fields.c &&& i.reservedMask.c ≠ 0 ∨ i.fields.t &&& i.reservedMask.t ≠ 0 := by
  simp only [Instr.reservedClear, Fields.clearOf, Bool.and_eq_false_iff, beq_eq_false_iff_ne, or_assoc]

namespace Machine

/-- What the command port does with a word: step 2 of the check order finds it illegal, or the command of
agent C with its OP and fields runs (R66, R114). -/
theorem presentCommand_cases (w : CommandWord) (s : State) :
    ((∀ i : Instr, i.agent = .C → i.opcode ≠ opByte w) ∧ presentCommand w s = illegalOnPort s) ∨
      ∃ i : Instr, i.agent = .C ∧ i.opcode = opByte w ∧ i.fields = fieldsOf w ∧
        presentCommand w s = exec i s := by
  by_cases hno : ∀ i : Instr, i.agent = .C → i.opcode ≠ opByte w
  · exact .inl ⟨hno, presentCommand_illegal hno s⟩
  · push Not at hno
    obtain ⟨i, hC, hi⟩ := hno
    obtain ⟨j, hdecode, hop, hfields⟩ := decode_of_opcode hi
    cases hagent : j.agent with
    | C => exact .inr ⟨j, hagent, hop, hfields, presentCommand_term hdecode hagent s⟩
    | E => exact absurd (hi.trans hop.symm) (Instr.opcode_ne_of_agent hC hagent)

/-! The halted block (R116, R117). -/

section Halted

variable {s : State} (hf : s.fault = true)
include hf

/-- A halted block ignores an illegal word too: step 1 of the check order comes first (R114). -/
theorem illegalOnPort_halted : illegalOnPort s = .next (s.setResult 0) := by
  simp [illegalOnPort, hf, ignored]

/-- A halted block ignores every command but a STATUS with reserved fields 0 (R116). -/
theorem exec_halted {i : Instr} (hC : i.agent = .C) (hi : i ≠ .status ⟨0, 0, 0, 0⟩) :
    exec i s = .next (s.setResult 0) := by
  cases i with
  | fsample f => cases hC
  | status f =>
    exact exec_status_reserved_halted hf
      (Bool.eq_false_iff.2 fun hr => hi (Instr.status_eq_of_reservedClear hr))
  | _ f => exact checked_halted hf

/-- A halted block ignores every word but that of a STATUS with reserved fields 0 (R116). -/
theorem presentCommand_halted {w : CommandWord} (hw : w ≠ encode (.status ⟨0, 0, 0, 0⟩)) :
    presentCommand w s = .next (s.setResult 0) := by
  rcases presentCommand_cases w s with ⟨-, hport⟩ | ⟨i, hC, hop, hfields, hport⟩
  · rw [hport]
    exact illegalOnPort_halted hf
  · rw [hport]
    refine exec_halted hf hC fun hi => hw ?_
    rw [← hi, encode_eq_word hop hfields]

/-- A halted block ignores an edge (R116). -/
theorem presentEdge_halted (now : Word32) : presentEdge now s = .next s := by
  change execFsample (edgeFields now) s = .next s
  simp [execFsample, hf]

end Halted

/-- A STATUS with reserved fields 0 reads the status word, halted or not (R111, R116). -/
theorem presentCommand_status (s : State) :
    presentCommand (encode (.status ⟨0, 0, 0, 0⟩)) s = .next (s.setResult (statusWord s)) :=
  (presentCommand_term (i := .status ⟨0, 0, 0, 0⟩) (by decide) rfl s).trans (exec_status_clear rfl s)

/-- An event of a program leaves a halted block as it was but for RESULT (R117). -/
theorem deliver_halted {e : Input} {s : State} (hf : s.fault = true) (he : e.ofProgram = true) :
    ∃ r, deliver e s = .next (s.setResult r) := by
  cases e with
  | command w =>
    by_cases hw : w = encode (.status ⟨0, 0, 0, 0⟩)
    · subst hw
      exact ⟨statusWord s, presentCommand_status s⟩
    · exact ⟨0, presentCommand_halted hf hw⟩
  | edge now => exact ⟨s.result, presentEdge_halted hf now⟩
  | reset presented => cases he
  | powerCycle ch presented => cases he

/-- A program leaves a halted block as it was but for RESULT (R117). -/
theorem runEvents_halted {s : State} {es : List Input} (hf : s.fault = true)
    (hes : ∀ e ∈ es, e.ofProgram = true) :
    runEvents es s = { s with inputs := [], result := (runEvents es s).result } := by
  induction es generalizing s with
  | nil => rfl
  | cons e es ih =>
    obtain ⟨r, hr⟩ := deliver_halted (s := { s with inputs := [] }) hf (hes e List.mem_cons_self)
    have hstep : stepTo { s with inputs := [e] } = { s with inputs := [], result := r } :=
      stepTo_next ((step_cons rfl).trans hr)
    rw [runEvents_cons, hstep]
    exact ih hf fun e' he' => hes e' (List.mem_cons_of_mem e he')

/-- Settles O11: by induction on the program, each event of which leaves the halted block but for RESULT; a
reset and a power cycle end in the reset state. -/
theorem onlyResetLeavesTheHalt : Obligations.OnlyResetLeavesTheHalt := by
  refine ⟨fun s es hf hes => runEvents_halted hf hes, fun s rest presented ch hin => ?_⟩
  rcases hin with hin | hin
  · exact ⟨_, step_cons hin, rfl, rfl⟩
  · exact ⟨_, step_cons hin, rfl, rfl⟩

/-- Settles O10: the word decides whether the halted block ignores the command or reads the status word. -/
theorem haltedBlockIgnoresEvents : Obligations.HaltedBlockIgnoresEvents := fun s rest hf =>
  have hf' : ({ s with inputs := rest } : State).fault = true := hf
  ⟨hf, fun _ hin hw => (step_cons hin).trans (presentCommand_halted hf' hw),
    fun hin => (step_cons hin).trans (presentCommand_status _),
    fun now hin => (step_cons hin).trans (presentEdge_halted hf' now)⟩

/-! The check order of a command on a block that is not halted (R114). -/

/-- What a block in state `s` answers when the checks come to the verdict `d`: the fault they raise, or a
state that the command's own rule gives, with FAULT and CAUSE as they were. -/
def Answers (s : State) (o : Out) : Option FaultCause → Prop
  | some c => o = .next (s.enterFault c)
  | none => ∃ t, o = .next t ∧ t.fault = s.fault ∧ t.cause = s.cause

/-- The thresholds as the state check of FTICK reads them (R106). -/
theorem thresholdsOrdered_iff (s : State) :
    s.thresholdsOrdered = true ↔ s.thLower < s.thUpper ∧ s.thUpper < s.thStopped := by
  simp [State.thresholdsOrdered]

/-- A timer id outside the pool names no timer (R31, R48). -/
theorem timer?_none {s : State} {a : Byte} : s.timer? a = none ↔ s.nTimers ≤ a.toNat :=
  List.getElem?_eq_none_iff

/-- On a block that is not halted STATUS meets the checks of every other command (R114). -/
theorem exec_status_running {s : State} (hf : s.fault = false) (f : Fields) :
    exec (.status f) s = checked (.status f) s (complete (statusWord s) s) := by
  change execStatus f s = _
  simp [execStatus, checked, hf]

namespace Answers

variable {s u : State} {i : Instr} {c : FaultCause} {d : Option FaultCause} {body : Out} {P : Prop}
  [Decidable P]

/-- A command that completes in a state with the flags of `s` raised no fault (R63). -/
theorem complete {r : Word32} (hfault : u.fault = s.fault) (hcause : u.cause = s.cause) :
    Answers s (complete r u) none := ⟨u.setResult r, rfl, hfault, hcause⟩

/-- The reserved bits are checked before all else (R114 step 3). -/
theorem checked (hf : s.fault = false) (hP : i.reservedClear = false ↔ P) (hbody : Answers s body d) :
    Answers s (checked i s body) (if P then some .reservedField else d) := by
  split
  next hbit => exact checked_reserved hf (hP.2 hbit)
  next hbit =>
    have hr : i.reservedClear = true := Bool.eq_true_of_not_eq_false fun h => hbit (hP.1 h)
    rwa [checked_clear hf hr]

section Ranged

variable {α : Type} {o : Option α} {x : α}

/-- An operand that its reader refuses faults before anything behind it is looked at (R114 step 4). -/
theorem outOfRange (hP : o = none ↔ P) (ho : o = none) :
    Answers s (raiseFault c s) (if P then some c else d) := by
  rw [if_pos (hP.1 ho)]
  exact rfl

/-- With an operand that its reader takes, the checks behind it decide (R114 step 4). -/
theorem inRange (hP : o = none ↔ P) (ho : o = some x) (hbody : Answers s body d) :
    Answers s body (if P then some c else d) := by
  rwa [if_neg fun h => by rw [hP.2 h] at ho; cases ho]

end Ranged

/-- A timer command faults on an id outside the pool, after the reserved bits (R94, R114 step 4). -/
theorem onTimer {body : Timer → Out} (hf : s.fault = false) (hP : i.reservedClear = false ↔ P)
    (hbody : ∀ tm, Answers s (body tm) none) :
    Answers s (onTimer i s body)
      (if P then some .reservedField
        else if s.nTimers ≤ i.fields.a.toNat then some .timerIdRange else none) := by
  refine .checked hf hP ?_
  cases ho : s.timer? i.fields.a with
  | none => exact .outOfRange timer?_none ho
  | some tm => exact .inRange timer?_none ho (hbody tm)

/-- Unordered thresholds fault FTICK after every other check (R114 step 5). -/
theorem ordered {r : Word32} (hfault : u.fault = s.fault) (hcause : u.cause = s.cause) :
    Answers s (if s.thresholdsOrdered then Machine.complete r u else raiseFault .thresholdOrder s)
      (if s.thLower < s.thUpper ∧ s.thUpper < s.thStopped then none else some .thresholdOrder) := by
  simp only [thresholdsOrdered_iff]
  split
  · exact .complete hfault hcause
  · exact rfl

end Answers

/-- Every command meets its checks in the order of the table of causes (R113, R114): it answers the fault of
`firstFault`, or goes by its own rule and leaves FAULT and CAUSE alone. -/
theorem exec_answers (i : Instr) {s : State} (hf : s.fault = false) :
    Answers s (exec i s) (firstFault i s) := by
  have hbits := i.reservedClear_eq_false_iff
  cases i with
  | fsample f =>
    change Answers s (execFsample f s) none
    exact ⟨s.sample f.t, by simp [execFsample, hf], rfl, rfl⟩
  | status f =>
    rw [exec_status_running hf]
    exact .checked hf hbits (.complete rfl rfl)
  | digit f =>
    refine .checked hf hbits ?_
    cases ho : position? f.a with
    | none => exact .outOfRange position?_none ho
    | some p =>
      refine .inRange position?_none ho ?_
      cases hk : symbol? f.b with
      | none => exact .outOfRange symbol?_none hk
      | some k => exact .inRange symbol?_none hk (.complete rfl rfl)
  | number f =>
    refine .checked hf hbits ?_
    cases ho : digitCount? f.a with
    | none => exact .outOfRange digitCount?_none ho
    | some d =>
      exact .inRange digitCount?_none ho
        (.complete (s.writeNumber_fault d _) (s.writeNumber_cause d _))
  | message f =>
    refine .checked hf hbits ?_
    cases ho : message? f.a with
    | none => exact .outOfRange message?_none ho
    | some m => exact .inRange message?_none ho (.complete rfl rfl)
  | dbread f =>
    refine .checked hf hbits ?_
    cases ho : position? f.a with
    | none => exact .outOfRange position?_none ho
    | some p => exact .inRange position?_none ho (.complete rfl rfl)
  | fsetth f =>
    refine .checked hf hbits ?_
    cases ho : thresholdSel? f.a with
    | none => exact .outOfRange thresholdSel?_none ho
    | some sel =>
      exact .inRange thresholdSel?_none ho
        (.complete (s.setThreshold_fault sel f.t) (s.setThreshold_cause sel f.t))
  | fread f =>
    refine .checked hf hbits ?_
    cases ho : readSel? f.a with
    | none => exact .outOfRange readSel?_none ho
    | some sel => exact .inRange readSel?_none ho (.complete rfl rfl)
  | ftick f => exact .checked hf hbits (.ordered rfl rfl)
  | refresh f => exact .checked hf hbits (.complete s.refreshAll_fault s.refreshAll_cause)
  | ttick f =>
    refine .onTimer hf hbits fun tm => ?_
    split
    · exact .complete rfl rfl
    · exact .complete rfl rfl
  | tcfg f | tstart f | tstop f | trem f | tactive f =>
    all_goals exact .onTimer hf hbits fun tm => .complete rfl rfl
  | _ f => exact .checked hf hbits (.complete rfl rfl)

/-- What a command answers on a block that is not halted, by the table of causes (R113, R114). -/
theorem exec_next {i : Instr} {s t : State} (hf : s.fault = false) (ht : exec i s = .next t) :
    (∃ c, firstFault i s = some c ∧ t = s.enterFault c) ∨
      (firstFault i s = none ∧ t.fault = false ∧ t.cause = s.cause) := by
  have hanswers := exec_answers i hf
  rw [ht] at hanswers
  cases hfirst : firstFault i s with
  | some c =>
    rw [hfirst] at hanswers
    exact .inl ⟨c, rfl, next_inj.1 hanswers⟩
  | none =>
    rw [hfirst] at hanswers
    obtain ⟨u, hu, hfault, hcause⟩ := hanswers
    rw [next_inj.1 hu]
    exact .inr ⟨rfl, hfault.trans hf, hcause⟩

/-- The table of causes does not read the waiting events. -/
theorem firstFault_withInputs (i : Instr) (s : State) (es : List Input) :
    firstFault i { s with inputs := es } = firstFault i s := rfl

/-- A halted or running block takes an edge without a fault (R113). -/
theorem presentEdge_next (now : Word32) (s : State) :
    ∃ t, presentEdge now s = .next t ∧ t.fault = s.fault ∧ t.cause = s.cause := by
  cases hf : s.fault with
  | true => exact ⟨s, presentEdge_halted hf now, hf, rfl⟩
  | false => exact ⟨s.sample now, presentEdge_running hf now, hf, rfl⟩

/-- Settles O6: the halted block ignores the word, the port faults an illegal one, and the verdict of
`firstFault` decides what is left. -/
theorem commandCheckOrder : Obligations.CommandCheckOrder := by
  refine fun s rest w hin => ⟨fun hf hw => ?_, fun hf => ⟨fun hno => ?_, fun i hdecode hC => ?_⟩⟩
  · exact (step_cons hin).trans (presentCommand_halted (s := { s with inputs := rest }) hf hw)
  · calc step s = presentCommand w { s with inputs := rest } := step_cons hin
      _ = illegalOnPort { s with inputs := rest } := presentCommand_illegal hno _
      _ = .next (State.enterFault .illegalOpcode { s with inputs := rest }) := illegalOnPort_running hf
  · have hstep : step s = exec i { s with inputs := rest } :=
      (step_cons hin).trans (presentCommand_term hdecode hC _)
    have hanswers := exec_answers i (s := { s with inputs := rest }) hf
    rw [firstFault_withInputs, ← hstep] at hanswers
    refine ⟨fun c hc => ?_, fun hnone => ?_⟩
    · rw [hc] at hanswers
      exact hanswers
    · rw [hnone] at hanswers
      obtain ⟨t, ht, hfault, hcause⟩ := hanswers
      exact ⟨t, ht, hstep ▸ ht, hfault.trans hf, hcause⟩

/-! What a fault changes (R115). -/

/-- A command that faults changes FAULT, CAUSE and RESULT only (R115). -/
theorem exec_fault_eq {i : Instr} {s t : State} (hf : s.fault = false) (ht : exec i s = .next t)
    (hfault : t.fault = true) : ∃ c, t = s.enterFault c := by
  rcases exec_next hf ht with ⟨c, -, htc⟩ | ⟨-, hrunning, -⟩
  · exact ⟨c, htc⟩
  · rw [hrunning] at hfault
    cases hfault

/-- An event that faults changes FAULT, CAUSE and RESULT only (R113, R115). -/
theorem deliver_fault_eq {e : Input} {s t : State} (hf : s.fault = false) (ht : deliver e s = .next t)
    (hfault : t.fault = true) : ∃ c, t = s.enterFault c := by
  cases e with
  | command w =>
    change presentCommand w s = .next t at ht
    rcases presentCommand_cases w s with ⟨-, hport⟩ | ⟨i, -, -, -, hport⟩
    · rw [hport, illegalOnPort_running hf] at ht
      exact ⟨.illegalOpcode, (next_inj.1 ht).symm⟩
    · exact exec_fault_eq hf (hport ▸ ht) hfault
  | edge now =>
    obtain ⟨u, hu, hkeep, -⟩ := presentEdge_next now s
    rw [next_inj.1 (ht.symm.trans hu), hkeep, hf] at hfault
    cases hfault
  | reset presented =>
    rw [← next_inj.1 ht] at hfault
    cases hfault
  | powerCycle ch presented =>
    rw [← next_inj.1 ht] at hfault
    cases hfault

/-- Settles O9: a step delivers the first waiting event, and an idle step changes nothing. -/
theorem faultsArePrecise : Obligations.FaultsArePrecise := by
  refine ⟨fun i s t hf ht hfault => exec_fault_eq hf ht hfault, fun s t hf ht hfault => ?_⟩
  cases hin : s.inputs with
  | nil =>
    rw [← next_inj.1 ((step_idle hin).symm.trans ht), hf] at hfault
    cases hfault
  | cons e rest =>
    exact deliver_fault_eq (s := { s with inputs := rest }) hf ((step_cons hin).symm.trans ht) hfault

/-! The table of causes, read from the cause (R113). -/

/-- The cause codes are distinct (R113). -/
theorem FaultCause.code_inj {c d : FaultCause} : c.code = d.code ↔ c = d := by
  cases c <;> cases d <;> decide

/-- The codes run from 1 to 9 (R113). -/
theorem FaultCause.code_range (c : FaultCause) : c.code ≠ 0 ∧ c.code.toNat ≤ 9 := by
  cases c <;> decide

/-- The row of a cause in the table of R113: the commands that raise it, by opcode, with the condition on
their operands or on the state. Code 1 is the port's, so no command raises it. -/
def FaultCause.RaisedBy (i : Instr) (s : State) : FaultCause → Prop
  | .illegalOpcode => False
  | .reservedField => i.agent = .C ∧ i.reservedClear = false
  | .positionRange => i.opcode.toNat ∈ [0x10, 0x15] ∧ 4 ≤ i.fields.a.toNat
  | .symbolRange => i.opcode.toNat = 0x10 ∧ i.fields.a.toNat < 4 ∧ 17 ≤ i.fields.b.toNat
  | .digitsRange => i.opcode.toNat = 0x11 ∧ (i.fields.a.toNat = 0 ∨ 4 < i.fields.a.toNat)
  | .messageRange => i.opcode.toNat = 0x12 ∧ 4 ≤ i.fields.a.toNat
  | .timerIdRange =>
    i.opcode.toNat ∈ [0x40, 0x41, 0x42, 0x43, 0x44, 0x45] ∧ s.nTimers ≤ i.fields.a.toNat
  | .selectorRange =>
    i.opcode.toNat = 0x52 ∧ 3 ≤ i.fields.a.toNat ∨ i.opcode.toNat = 0x53 ∧ 7 ≤ i.fields.a.toNat
  | .thresholdOrder =>
    i.opcode.toNat = 0x51 ∧ ¬(s.thLower.toNat < s.thUpper.toNat ∧ s.thUpper.toNat < s.thStopped.toNat)

/-- Of a command with a reserved bit set the verdict is that bit, and an edge has none (R67, R104). -/
theorem firstFault_reserved {i : Instr} (s : State) (hr : i.reservedClear = false) :
    firstFault i s = if i.agent = .C then some .reservedField else none := by
  have hbits := i.reservedClear_eq_false_iff.1 hr
  cases i with
  | fsample f => rfl
  | _ f => exact if_pos hbits

/-- Of a command with its reserved bits 0 the verdict is the cause whose row names it (R113). DIGIT has two
rows, the position's first; NUMBER's row has two sides and FTICK's reads the thresholds; every other command
has one row with one bound, or none. -/
theorem firstFault_eq_some_iff {i : Instr} (s : State) (hr : i.reservedClear = true) (c : FaultCause) :
    firstFault i s = some c ↔ c.RaisedBy i s := by
  have hbits := i.reservedClear_eq_false_iff.not.1 (Bool.not_eq_false _ ▸ hr)
  cases i with
  | fsample f => cases c <;> simp [firstFault, FaultCause.RaisedBy, Instr.opcode, Instr.agent]
  | digit f =>
    refine (Eq.congr_left (if_neg hbits)).trans ?_
    by_cases ha : 4 ≤ f.a.toNat
    · cases c <;> simp [FaultCause.RaisedBy, Instr.opcode, Instr.fields, hr, ha, ha.not_gt]
    · cases c <;> simp [FaultCause.RaisedBy, Instr.opcode, Instr.fields, hr, ha, not_le.1 ha]
  | number f =>
    refine (Eq.congr_left (if_neg hbits)).trans ?_
    cases c <;> simp [FaultCause.RaisedBy, Instr.opcode, Instr.fields, hr, or_iff_not_imp_left]
  | ftick f =>
    refine (Eq.congr_left (if_neg hbits)).trans ?_
    cases c <;> simp [FaultCause.RaisedBy, Instr.opcode, hr, BitVec.lt_def]
  | _ f =>
    refine (Eq.congr_left (if_neg hbits)).trans ?_
    cases c <;> simp [FaultCause.RaisedBy, Instr.opcode, Instr.fields, hr]

/-- No command raises code 1, which is the port's (R113). -/
theorem firstFault_ne_illegalOpcode (i : Instr) (s : State) : firstFault i s ≠ some .illegalOpcode := by
  cases hr : i.reservedClear with
  | true => exact fun h => (firstFault_eq_some_iff s hr _).1 h
  | false =>
    rw [firstFault_reserved s hr]
    split <;> simp

/-- Code 2 is raised exactly for a reserved bit of a command of agent C (R67, R113). -/
theorem firstFault_eq_reservedField_iff (i : Instr) (s : State) :
    firstFault i s = some .reservedField ↔ i.agent = .C ∧ i.reservedClear = false := by
  cases hr : i.reservedClear with
  | true => simpa [FaultCause.RaisedBy, hr] using firstFault_eq_some_iff s hr .reservedField
  | false => simp [firstFault_reserved s hr]

/-- On a block with no cause saved, CAUSE after a command tells the verdict of the table (R113, R115). -/
theorem cause_eq_code_iff {i : Instr} {s t : State} (hf : s.fault = false) (hcause : s.cause = 0)
    (ht : exec i s = .next t) (c : FaultCause) : t.cause = c.code ↔ firstFault i s = some c := by
  rcases exec_next hf ht with ⟨d, hd, rfl⟩ | ⟨hnone, -, hkeep⟩
  · rw [hd, Option.some_inj]
    exact FaultCause.code_inj
  · rw [hnone, hkeep, hcause]
    exact iff_of_false c.code_range.1.symm (Option.some_ne_none c).symm

/-- FAULT and CAUSE after a command agree: a cause is saved with a fault, and none without one (R113). -/
theorem cause_of_exec {i : Instr} {s t : State} (hf : s.fault = false) (hcause : s.cause = 0)
    (ht : exec i s = .next t) :
    (t.fault = true → t.cause ≠ 0) ∧ (t.fault = false → t.cause = 0) ∧ t.cause.toNat ≤ 9 := by
  rcases exec_next hf ht with ⟨d, -, rfl⟩ | ⟨-, hfault, hkeep⟩
  · exact ⟨fun _ => d.code_range.1, nofun, d.code_range.2⟩
  · rw [hfault, hkeep, hcause]
    exact ⟨nofun, fun _ => rfl, Nat.zero_le 9⟩

/-- On a block with no cause saved the port saves code 1 exactly for an illegal opcode (R66, R113). -/
theorem cause_of_presentCommand {w : CommandWord} {s t : State} (hf : s.fault = false)
    (hcause : s.cause = 0) (ht : presentCommand w s = .next t) :
    t.cause = 1 ↔ ∀ i : Instr, i.agent = .C → i.opcode ≠ opByte w := by
  rcases presentCommand_cases w s with ⟨hno, hport⟩ | ⟨i, hC, hop, -, hport⟩
  · rw [hport, illegalOnPort_running hf] at ht
    rw [← next_inj.1 ht]
    exact iff_of_true rfl hno
  · have hcode := cause_eq_code_iff hf hcause (hport ▸ ht) .illegalOpcode
    exact iff_of_false (fun h => firstFault_ne_illegalOpcode i s (hcode.1 h)) fun hno => hno i hC hop

/-- Settles O8: CAUSE tells the verdict of `firstFault`, and each verdict is a row of the table. -/
theorem faultCausesOfTheTable : Obligations.FaultCausesOfTheTable := by
  refine ⟨fun s t rest w hin hf hcause ht => ?_, fun s t rest now hin ht => ?_,
    fun i s t hf hcause ht => ?_⟩
  · exact cause_of_presentCommand (s := { s with inputs := rest }) hf hcause
      ((step_cons hin).symm.trans ht)
  · obtain ⟨u, hu, hkeep⟩ := presentEdge_next now { s with inputs := rest }
    rw [next_inj.1 (((step_cons hin).symm.trans ht).symm.trans hu)]
    exact hkeep
  · have hcode := cause_eq_code_iff hf hcause ht
    obtain ⟨hfaulted, hrunning, hle⟩ := cause_of_exec hf hcause ht
    refine ⟨hfaulted, hrunning, fun h => firstFault_ne_illegalOpcode i s ((hcode .illegalOpcode).1 h), hle,
      (hcode .reservedField).trans (firstFault_eq_reservedField_iff i s), fun hr => ?_⟩
    have hrow (c : FaultCause) : t.cause = c.code ↔ c.RaisedBy i s :=
      (hcode c).trans (firstFault_eq_some_iff s hr c)
    exact ⟨hrow .positionRange, hrow .symbolRange, hrow .digitsRange, hrow .messageRange,
      hrow .timerIdRange, hrow .selectorRange, hrow .thresholdOrder⟩

end Machine

end Sys2Proof
end

section
/-! The rule of each command behind the checks of R114, as a relation of the states before and after it, and what
`exec` can answer in its terms: a proof about every command splits on the answers and then on the rules. -/

namespace Sys2Proof.Machine

/-- The command's own rule takes `s` to `t`: one constructor per row of R64 (TTICK has two), with what its operands and
the state must be for the rule to be reached. -/
inductive Effect : Instr → State → State → Prop
  | digit {f s p k} : position? f.a = some p → symbol? f.b = some k →
      Effect (.digit f) s ((s.writeDigit p k).setResult 0)
  | number {f s d} : digitCount? f.a = some d →
      Effect (.number f) s ((s.writeNumber d (valueOperand f.t).toNat).setResult 0)
  | message {f s m} : message? f.a = some m → Effect (.message f) s ((s.writeMessage m).setResult 0)
  | colon {f s} : Effect (.colon f) s ((s.setColon (boolOperand f.a)).setResult 0)
  | tcolon {f s} : Effect (.tcolon f) s ((s.setColon (!s.colon)).setResult (flagResult (!s.colon)))
  | dbread {f s p} : position? f.a = some p →
      Effect (.dbread f) s (s.setResult ((s.db.get p).setWidth 32))
  | rset {f s} : Effect (.rset f) s ((s.relayUpdate f.a f.b).setResult 0)
  | rsetn {f s} : Effect (.rsetn f) s
      ((s.relayUpdate (relayMask f.a) (if boolOperand f.b then relayOn else relayOff)).setResult 0)
  | rget {f s} : Effect (.rget f) s (s.setResult ((s.rb &&& f.a).setWidth 32))
  | rison {f s} : Effect (.rison f) s (s.setResult (flagResult (s.rb &&& relayMask f.a != 0)))
  | rmask {f s} : Effect (.rmask f) s (s.setResult ((relayMask f.a).setWidth 32))
  | renable {f s} : Effect (.renable f) s ((s.drive (.oeN false)).setResult 0)
  | rdisable {f s} : Effect (.rdisable f) s ((s.drive (.oeN true)).setResult 0)
  | refresh {f s} : Effect (.refresh f) s (s.refreshAll.setResult 0)
  | tcfg {f s tm} : s.timers[f.a.toNat]? = some tm →
      Effect (.tcfg f) s ((s.setTimer f.a ⟨f.b, f.t, 0, false⟩).setResult 0)
  | tstart {f s tm} : s.timers[f.a.toNat]? = some tm →
      Effect (.tstart f) s (((s.setTimer f.a { tm with startTimestamp := f.t, active := true }).relayUpdate
        tm.relayMask relayOn).setResult 0)
  | ttickExpired {f s tm} : s.timers[f.a.toNat]? = some tm → tm.expired f.t = true →
      Effect (.ttick f) s ((s.idleTimer f.a tm).setResult 0)
  | ttickRunning {f s tm} : s.timers[f.a.toNat]? = some tm → tm.expired f.t = false →
      Effect (.ttick f) s (s.setResult (flagResult tm.active))
  | tstop {f s tm} : s.timers[f.a.toNat]? = some tm →
      Effect (.tstop f) s ((s.idleTimer f.a tm).setResult 0)
  | trem {f s tm} : s.timers[f.a.toNat]? = some tm →
      Effect (.trem f) s (s.setResult (tm.remaining f.t))
  | tactive {f s tm} : s.timers[f.a.toNat]? = some tm →
      Effect (.tactive f) s (s.setResult (flagResult tm.active))
  | fsample {f s} : Effect (.fsample f) s (s.sample f.t)
  | ftick {f s} : s.thresholdsOrdered = true →
      Effect (.ftick f) s (({ s with fState := s.nextFreqState f.t } : State).setResult
        ((s.nextFreqState f.t).code.setWidth 32))
  | fsetth {f s sel} : thresholdSel? f.a = some sel →
      Effect (.fsetth f) s ((s.setThreshold sel f.t).setResult 0)
  | fread {f s sel} : readSel? f.a = some sel → Effect (.fread f) s (s.setResult (s.readFreq sel))
  | status {f s} : Effect (.status f) s (s.setResult (statusWord s))

section

variable {i : Instr} {s t : State} {body : Out}

/-- The checks that end in a block that is not halted have reached the command's rule (R114). -/
theorem checked_running (hf : s.fault = false) (hrun : t.fault = false) (h : checked i s body = .next t) :
    i.reservedClear = true ∧ body = .next t := by
  rcases checked_next h with ⟨hhalted, -⟩ | ⟨-, -, rfl⟩ | ⟨-, hr, hbody⟩
  · rw [hf] at hhalted; cases hhalted
  · cases hrun
  · exact ⟨hr, hbody⟩

/-- The same of a timer command, which then names a timer of the pool (R94). -/
theorem onTimer_running {body : Timer → Out} (hf : s.fault = false) (hrun : t.fault = false)
    (h : onTimer i s body = .next t) :
    i.reservedClear = true ∧ ∃ tm, s.timers[i.fields.a.toNat]? = some tm ∧ body tm = .next t := by
  rcases onTimer_next h with ⟨hhalted, -⟩ | ⟨-, -, rfl⟩ | ⟨-, -, -, rfl⟩ | ⟨tm, -, hr, htm, hbody⟩
  · rw [hf] at hhalted; cases hhalted
  · cases hrun
  · cases hrun
  · exact ⟨hr, tm, htm, hbody⟩

/-- A fault does not end in a block that is not halted. -/
theorem raiseFault_ne_running {c : FaultCause} (hrun : t.fault = false) : raiseFault c s ≠ .next t := by
  intro h
  rw [← next_inj.1 h] at hrun
  cases hrun

/-- On a block that is not halted a command with its reserved bits 0 does what its rule says. FSAMPLE, agent E's, has
no reserved bits to check (R104, R114). -/
theorem Effect.exec_eq (h : Effect i s t) (hf : s.fault = false)
    (hr : i.agent = .C → i.reservedClear = true) : exec i s = .next t := by
  cases h with
  | fsample => exact if_neg (by simp [hf])
  | status => exact exec_status_clear (hr rfl) s
  | digit hp hk => exact (checked_clear hf (hr rfl)).trans (by rw [hp, hk]; rfl)
  | number hd => exact (checked_clear hf (hr rfl)).trans (by rw [hd]; rfl)
  | message hm => exact (checked_clear hf (hr rfl)).trans (by rw [hm]; rfl)
  | dbread hp => exact (checked_clear hf (hr rfl)).trans (by rw [hp]; rfl)
  | fsetth hsel => exact (checked_clear hf (hr rfl)).trans (by rw [hsel]; rfl)
  | fread hsel => exact (checked_clear hf (hr rfl)).trans (by rw [hsel]; rfl)
  | ftick hord => exact (checked_clear hf (hr rfl)).trans (if_pos hord)
  | ttickExpired htm hexp => exact (onTimer_some hf (hr rfl) htm).trans (if_pos hexp)
  | ttickRunning htm hexp => exact (onTimer_some hf (hr rfl) htm).trans (if_neg (by simp [hexp]))
  | tcfg htm | tstart htm | tstop htm | trem htm | tactive htm =>
    all_goals exact onTimer_some hf (hr rfl) htm
  | _ => exact checked_clear hf (hr rfl)

/-- On a block that is not halted a command that does not fault had its reserved bits 0 and did what its rule says
(R114). -/
theorem effect_of_exec (ht : exec i s = .next t) (hf : s.fault = false) (hrun : t.fault = false) :
    (i.agent = .C → i.reservedClear = true) ∧ Effect i s t := by
  cases i with
  | fsample f =>
    refine ⟨nofun, ?_⟩
    rw [Effect.fsample.exec_eq hf nofun] at ht
    exact next_inj.1 ht ▸ .fsample
  | status f =>
    rw [exec_status_running hf] at ht
    obtain ⟨hr, hbody⟩ := checked_running hf hrun ht
    exact ⟨fun _ => hr, next_inj.1 hbody ▸ .status⟩
  | digit f =>
    obtain ⟨hr, hbody⟩ := checked_running hf hrun ht
    refine ⟨fun _ => hr, ?_⟩
    cases hp : position? f.a with
    | none => rw [hp] at hbody; exact absurd hbody (raiseFault_ne_running hrun)
    | some p =>
      rw [hp] at hbody
      cases hk : symbol? f.b with
      | none => rw [hk] at hbody; exact absurd hbody (raiseFault_ne_running hrun)
      | some k => rw [hk] at hbody; exact next_inj.1 hbody ▸ .digit hp hk
  | number f =>
    obtain ⟨hr, hbody⟩ := checked_running hf hrun ht
    refine ⟨fun _ => hr, ?_⟩
    cases hd : digitCount? f.a with
    | none => rw [hd] at hbody; exact absurd hbody (raiseFault_ne_running hrun)
    | some d => rw [hd] at hbody; exact next_inj.1 hbody ▸ .number hd
  | message f =>
    obtain ⟨hr, hbody⟩ := checked_running hf hrun ht
    refine ⟨fun _ => hr, ?_⟩
    cases hm : message? f.a with
    | none => rw [hm] at hbody; exact absurd hbody (raiseFault_ne_running hrun)
    | some m => rw [hm] at hbody; exact next_inj.1 hbody ▸ .message hm
  | dbread f =>
    obtain ⟨hr, hbody⟩ := checked_running hf hrun ht
    refine ⟨fun _ => hr, ?_⟩
    cases hp : position? f.a with
    | none => rw [hp] at hbody; exact absurd hbody (raiseFault_ne_running hrun)
    | some p => rw [hp] at hbody; exact next_inj.1 hbody ▸ .dbread hp
  | fsetth f =>
    obtain ⟨hr, hbody⟩ := checked_running hf hrun ht
    refine ⟨fun _ => hr, ?_⟩
    cases hsel : thresholdSel? f.a with
    | none => rw [hsel] at hbody; exact absurd hbody (raiseFault_ne_running hrun)
    | some sel => rw [hsel] at hbody; exact next_inj.1 hbody ▸ .fsetth hsel
  | fread f =>
    obtain ⟨hr, hbody⟩ := checked_running hf hrun ht
    refine ⟨fun _ => hr, ?_⟩
    cases hsel : readSel? f.a with
    | none => rw [hsel] at hbody; exact absurd hbody (raiseFault_ne_running hrun)
    | some sel => rw [hsel] at hbody; exact next_inj.1 hbody ▸ .fread hsel
  | ftick f =>
    obtain ⟨hr, hbody⟩ := checked_running hf hrun ht
    refine ⟨fun _ => hr, ?_⟩
    split at hbody
    next hord => exact next_inj.1 hbody ▸ .ftick hord
    next => exact absurd hbody (raiseFault_ne_running hrun)
  | ttick f =>
    obtain ⟨hr, tm, htm, hbody⟩ := onTimer_running hf hrun ht
    refine ⟨fun _ => hr, ?_⟩
    split at hbody
    next hexp => exact next_inj.1 hbody ▸ .ttickExpired htm hexp
    next hexp => exact next_inj.1 hbody ▸ .ttickRunning htm (Bool.eq_false_iff.2 hexp)
  | tcfg f | tstart f | tstop f | trem f | tactive f =>
    all_goals
      obtain ⟨hr, tm, htm, hbody⟩ := onTimer_running hf hrun ht
      exact ⟨fun _ => hr, next_inj.1 hbody ▸ by constructor; exact htm⟩
  | _ f =>
    obtain ⟨hr, hbody⟩ := checked_running hf hrun ht
    exact ⟨fun _ => hr, next_inj.1 hbody ▸ by constructor⟩

/-- What a halted block leaves in RESULT: the status word for the one form of STATUS that it executes, 0 for every
other command, and no change for an edge (R104, R116). -/
def haltedResult (i : Instr) (s : State) : Word32 :=
  if i = .status ⟨0, 0, 0, 0⟩ then statusWord s else if i.agent = .C then 0 else s.result

/-- On a halted block a command changes RESULT at most (R116). -/
theorem exec_of_halted (hf : s.fault = true) (i : Instr) :
    exec i s = .next (s.setResult (haltedResult i s)) := by
  unfold haltedResult
  split
  next hi =>
    subst hi
    exact exec_status_clear rfl s
  next hi =>
    split
    next hC => exact exec_halted hf hC hi
    next hE =>
      cases i with
      | fsample f => exact if_pos hf
      | _ f => exact absurd rfl hE

/-- On a block that is not halted a command takes the fault that the table of causes gives it (R113). -/
theorem exec_of_firstFault {c : FaultCause} (hf : s.fault = false) (hc : firstFault i s = some c) :
    exec i s = .next (s.enterFault c) := by
  have hanswers := exec_answers i hf
  rwa [hc] at hanswers

/-- All that a command can do (R114): on a halted block it writes RESULT at most; else it takes a fault, or its rule
takes place. -/
theorem exec_cases (ht : exec i s = .next t) :
    (s.fault = true ∧ t = s.setResult (haltedResult i s)) ∨
    (s.fault = false ∧ ∃ c, firstFault i s = some c ∧ t = s.enterFault c) ∨
    (s.fault = false ∧ t.fault = false ∧ (i.agent = .C → i.reservedClear = true) ∧ Effect i s t) := by
  cases hf : s.fault with
  | true => exact .inl ⟨rfl, (next_inj.1 ((exec_of_halted hf i).symm.trans ht)).symm⟩
  | false =>
    rcases exec_next hf ht with hfault | ⟨-, hrun, -⟩
    · exact .inr (.inl ⟨rfl, hfault⟩)
    · exact .inr (.inr ⟨rfl, hrun, effect_of_exec ht hf hrun⟩)

end

end Sys2Proof.Machine
end

section
/-! The word of a command and the command of a word (30_encoding.md R61, R64, R70), and a step on the event that
brings it (00_scope.md R14, 70_reset_and_hazards.md R128). -/

namespace Sys2Proof

/-- OP stands in the top byte of a word (R61). -/
theorem opByte_assembleWord (op : Byte) (f : Fields) : opByte (assembleWord op f) = op := by
  rw [opByte, assembleWord]
  iterate 3 rw [BitVec.extractLsb'_append_eq_of_le (by decide)]
  exact BitVec.extractLsb'_append_eq_left

/-- The fields stand below it, in their order (R61). -/
theorem fieldsOf_assembleWord (op : Byte) (f : Fields) : fieldsOf (assembleWord op f) = f := by
  obtain ⟨a, b, c, t⟩ := f
  rw [fieldsOf, assembleWord, Fields.mk.injEq]
  refine ⟨?_, ?_, ?_, BitVec.extractLsb'_append_eq_right⟩
  · iterate 3 rw [BitVec.extractLsb'_append_eq_of_le (by decide)]
    exact BitVec.extractLsb'_append_eq_right
  · iterate 2 rw [BitVec.extractLsb'_append_eq_of_le (by decide)]
    exact BitVec.extractLsb'_append_eq_right
  · rw [BitVec.extractLsb'_append_eq_of_le (by decide)]
    exact BitVec.extractLsb'_append_eq_right

/-- A word laid out with the OP and the fields of a command decodes to it (R61, R64). -/
theorem decode_assembleWord {op : Byte} {f : Fields} {i : Instr} (hop : i.opcode = op) (hfields : i.fields = f) :
    decode (assembleWord op f) = .term i :=
  decode_eq_term (hop.trans (opByte_assembleWord op f).symm) (hfields.trans (fieldsOf_assembleWord op f).symm)

/-- What decodes to a command has its OP and its fields (R70). -/
theorem opcode_fields_of_decode {w : CommandWord} {i : Instr} (h : decode w = .term i) :
    i.opcode = opByte w ∧ i.fields = fieldsOf w := by
  rcases decode_cases w with ⟨j, hj, hop, hfields⟩ | hillegal
  · rw [h] at hj
    cases hj
    exact ⟨hop, hfields⟩
  · rw [h] at hillegal
    cases hillegal

/-- A word is refused exactly when its OP is no row's (R70). -/
theorem decode_illegal_iff (w : CommandWord) :
    decode w = .illegalOpcode (opByte w) ↔ ∀ i : Instr, i.opcode ≠ opByte w := by
  constructor
  · intro hillegal i hop
    obtain ⟨j, hj, -⟩ := decode_of_opcode hop
    rw [hillegal] at hj
    cases hj
  · intro hno
    rcases decode_cases w with ⟨j, -, hop, -⟩ | hillegal
    · exact absurd hop (hno j)
    · exact hillegal

/-- The refusal names the word's OP (R70). -/
theorem eq_opByte_of_decode_illegal {w : CommandWord} {op : Byte} (h : decode w = .illegalOpcode op) :
    op = opByte w := by
  rcases decode_cases w with ⟨j, hj, -⟩ | hillegal
  · rw [h] at hj
    cases hj
  · rw [h] at hillegal
    cases hillegal
    rfl

namespace Machine

/-- Settles O1: a word and the pair of its OP and its fields determine each other, and the decoder looks at this
pair only. -/
theorem decodeAndEncodeAgree : Obligations.DecodeAndEncodeAgree := by
  refine ⟨fun i => decode_assembleWord rfl rfl, fun w i h => ?_, fun w op => ⟨fun h => ?_, ?_⟩⟩
  · obtain ⟨hop, hfields⟩ := opcode_fields_of_decode h
    exact encode_eq_word hop hfields
  · obtain rfl := eq_opByte_of_decode_illegal h
    exact ⟨rfl, (decode_illegal_iff w).1 h⟩
  · rintro ⟨rfl, hno⟩
    exact (decode_illegal_iff w).2 hno

/-- Settles O59: each row by its OP and its fields; the agent column has one row of agent E. -/
theorem opcodeMapNamesEveryCommand : Obligations.OpcodeMapNamesEveryCommand := by
  refine ⟨fun f => ?_, fun i => ?_⟩
  · iterate 24 refine ⟨decode_assembleWord rfl rfl, ?_⟩
    exact decode_assembleWord rfl rfl
  · cases i with
    | _ f => simp [Instr.agent, Instr.opcode]

/-- Settles O3: seven words of the spec, decoded. -/
theorem wordsOfTheSpecDecode : Obligations.WordsOfTheSpecDecode :=
  ⟨rfl, rfl, rfl, rfl, rfl, rfl, rfl⟩

/-- Settles O4: a step delivers the first waiting event, and the port runs what a word decodes to. -/
theorem stepRunsTheDecodedCommand : Obligations.StepRunsTheDecodedCommand :=
  ⟨fun _ _ _ _ hin hw hC => (step_cons hin).trans (presentCommand_term hw hC _),
    fun _ _ _ hin => step_cons hin, fun _ hin => step_idle hin⟩

/-- Every command answers a next state (R115, R116). -/
theorem exec_total (i : Instr) (s : State) : ∃ t, exec i s = .next t := by
  obtain ⟨t, ht, -⟩ := exec_carries i s s.inputs
  exact ⟨t, ht⟩

/-- Every event is taken with a next state. -/
theorem deliver_total (e : Input) (s : State) : ∃ t, deliver e s = .next t := by
  obtain ⟨t, ht, -⟩ := deliver_carries e s s.inputs
  exact ⟨t, ht⟩

/-- Settles O12: a step waits or delivers an event. -/
theorem noStepStops : Obligations.NoStepStops := by
  refine ⟨fun s => ?_, exec_total⟩
  cases hin : s.inputs with
  | nil => exact ⟨s, step_idle hin⟩
  | cons e rest =>
    rw [step_cons hin]
    exact deliver_total e _

/-- Settles O14: the event's step is the reset of the block, field by field. -/
theorem resetEventRestoresRegisters : Obligations.ResetEventRestoresRegisters :=
  fun _ _ _ hin => step_cons hin

/-- Settles O15: after a power cycle the state is made of the parameters, the trace, the named chain and the events
that wait, and of nothing else. -/
theorem powerCycleLosesAllState : Obligations.PowerCycleLosesAllState := by
  refine ⟨fun s rest ch presented hin => step_cons hin,
    fun s s' rest ch presented presented' hin hin' hcfg htrace => ?_⟩
  refine ⟨_, step_cons hin, ?_, rfl, rfl, rfl, rfl, rfl⟩
  rw [step_cons hin']
  simp only [deliver, State.resetBlock, hcfg, htrace]

end Machine

end Sys2Proof
end

section
/-! What each command may write (10_state.md sections 1 to 6): the fields of the state command by command, and what
the display words, the timers, the averager and the serial pins can be after a command. -/

namespace Sys2Proof.Machine

variable {i : Instr} {s t : State}

/-- `s` with the fields that the command's rule may write taken from `t` (R17, R27 to R35, R39). RESULT and the fault
flags are left out: every command may write them. -/
def patch (i : Instr) (s t : State) : State :=
  match i with
  | .digit _ | .number _ | .message _ => { s with db := t.db }
  | .colon _ | .tcolon _ => { s with db := t.db, colon := t.colon }
  | .rset _ | .rsetn _ => { s with rb := t.rb }
  | .renable _ | .rdisable _ => { s with oe := t.oe, trace := t.trace }
  | .refresh _ => { s with pins := t.pins, chain := t.chain, trace := t.trace }
  | .tcfg _ => { s with timers := t.timers }
  | .tstart _ | .ttick _ | .tstop _ => { s with timers := t.timers, rb := t.rb }
  | .fsample _ => { s with fLast := t.fLast, fAcc := t.fAcc, fSp := t.fSp }
  | .ftick _ => { s with fState := t.fState }
  | .fsetth _ => { s with thLower := t.thLower, thUpper := t.thUpper, thStopped := t.thStopped }
  | .dbread _ | .rget _ | .rison _ | .rmask _ | .trem _ | .tactive _ | .fread _ | .status _ => s

/-- A rule writes its own fields and RESULT only. -/
theorem Effect.eq_patch (h : Effect i s t) : t = { patch i s t with result := t.result } := by
  cases h with
  | @number f s d hd => exact congrArg (State.setResult 0) (s.writeNumber_eq d _)
  | refresh =>
    -- by `rw`: a definitional check would compute the four frames
    rw [patch, State.setResult_pins, State.setResult_chain, State.setResult_trace, State.setResult_result,
      State.refreshAll_trace]
    exact congrArg (State.setResult 0) s.refreshAll_eq
  | @fsetth f s sel hsel => exact congrArg (State.setResult 0) (s.setThreshold_eq sel f.t)
  | _ => rfl

/-- A state that differs from `s` in RESULT and the fault flags only has nothing to patch. -/
theorem patch_setFlags (i : Instr) (s : State) (b : Bool) (c : BitVec 4) (r : Word32) :
    patch i s { s with fault := b, cause := c, result := r } = s := by
  cases i with
  | _ f => rfl

/-- A command writes its own fields, RESULT and the fault flags only. -/
theorem exec_eq_patch (ht : exec i s = .next t) :
    t = { patch i s t with fault := t.fault, cause := t.cause, result := t.result } := by
  rcases exec_cases ht with ⟨-, rfl⟩ | ⟨-, c, -, rfl⟩ | ⟨hf, hrun, -, h⟩
  · rw [State.setResult, patch_setFlags i s s.fault s.cause]
  · rw [State.enterFault, patch_setFlags]
  · rcases exec_next hf ht with ⟨c, -, rfl⟩ | ⟨-, -, hcause⟩
    · cases hrun
    · have hpatch : (patch i s t).fault = t.fault ∧ (patch i s t).cause = t.cause := by
        rw [hrun, hcause, ← hf]
        cases i with
        | _ f => exact ⟨rfl, rfl⟩
      rw [← hpatch.1, ← hpatch.2]
      exact h.eq_patch

/-- The writers of each register, pin and list, as opcodes of the map (R17, R27, R28, R30, R32 to R35, R39): row by
row of the table. -/
theorem patch_writers (i : Instr) (s t : State) :
    (i.opcode.toNat ∉ [0x10, 0x11, 0x12, 0x13, 0x14] → (patch i s t).db = s.db) ∧
    (i.opcode.toNat ∉ [0x13, 0x14] → (patch i s t).colon = s.colon) ∧
    (i.opcode.toNat ∉ [0x20, 0x21, 0x41, 0x42, 0x43] → (patch i s t).rb = s.rb) ∧
    (i.opcode.toNat ∉ [0x25, 0x26] → (patch i s t).oe = s.oe) ∧
    (i.opcode.toNat ∉ [0x40, 0x41, 0x42, 0x43] → (patch i s t).timers = s.timers) ∧
    (i.opcode.toNat ≠ 0x50 →
      (patch i s t).fLast = s.fLast ∧ (patch i s t).fAcc = s.fAcc ∧ (patch i s t).fSp = s.fSp) ∧
    (i.opcode.toNat ≠ 0x51 → (patch i s t).fState = s.fState) ∧
    (i.opcode.toNat ≠ 0x52 → (patch i s t).thLower = s.thLower ∧ (patch i s t).thUpper = s.thUpper ∧
      (patch i s t).thStopped = s.thStopped) ∧
    (i.opcode.toNat ≠ 0x30 → (patch i s t).pins = s.pins ∧ (patch i s t).chain = s.chain) ∧
    (i.opcode.toNat ∉ [0x25, 0x26, 0x30] → (patch i s t).trace = s.trace) ∧
    (patch i s t).inputs = s.inputs ∧ (patch i s t).cfg = s.cfg := by
  cases i with
  | _ f => simp [patch, Instr.opcode]

/-- No command changes the parameters (R43). -/
theorem exec_cfg (ht : exec i s = .next t) : t.cfg = s.cfg := by
  obtain ⟨-, -, -, -, -, -, -, -, -, -, -, hcfg⟩ := patch_writers i s t
  rw [exec_eq_patch ht]
  exact hcfg

/-- What a command leaves in a display word: the word before, an entry of the table with the select bit, or the word
before with its colon bit written (R73, R77). -/
theorem exec_db_get (ht : exec i s = .next t) (q : Fin 4) :
    t.db.get q = s.db.get q ∨ (∃ k, t.db.get q = s.cfg.ct k ||| s.cfg.dst q) ∨
      ∃ lit, t.db.get q = colonWord s.cfg q lit (s.db.get q) := by
  rcases exec_cases ht with ⟨-, rfl⟩ | ⟨-, c, -, rfl⟩ | ⟨-, -, -, h⟩
  · exact .inl rfl
  · exact .inl rfl
  · cases h with
    | @digit f s p k =>
      rw [State.setResult_db, State.writeDigit_get]
      split
      next hq => exact .inr (.inl ⟨k, by rw [hq]⟩)
      next => exact .inl rfl
    | @number f s d =>
      rw [State.setResult_db, State.writeNumber_get]
      split
      · exact .inr (.inl ⟨_, rfl⟩)
      · exact .inl rfl
    | message => exact .inr (.inl ⟨_, State.writeMessage_get _ q s⟩)
    | colon | tcolon =>
      all_goals
        rw [State.setResult_db, State.setColon_get]
        split
        · exact .inr (.inr ⟨_, rfl⟩)
        · exact .inl rfl
    | refresh => exact .inl (by rw [State.setResult_db, State.refreshAll_db])
    | fsetth => exact .inl (by rw [State.setResult_db, State.setThreshold_db])
    | _ => exact .inl rfl

/-- What a command leaves in the pool: the pool before, or one timer of it replaced, by TCFG, by TSTART with its
configuration kept, or by TTICK and TSTOP with its start kept too (R32, R97 to R100). -/
theorem exec_timers (ht : exec i s = .next t) :
    t.timers = s.timers ∨ ∃ old tm, s.timers[i.fields.a.toNat]? = some old ∧
      t.timers = (s.setTimer i.fields.a tm).timers ∧
      (i.opcode.toNat ≠ 0x40 → tm.relayMask = old.relayMask ∧ tm.timeoutMs = old.timeoutMs) ∧
      (i.opcode.toNat ∉ [0x40, 0x41] → tm.startTimestamp = old.startTimestamp) := by
  rcases exec_cases ht with ⟨-, rfl⟩ | ⟨-, c, -, rfl⟩ | ⟨-, -, -, h⟩
  · exact .inl rfl
  · exact .inl rfl
  · cases h with
    | @tcfg f s tm htm => exact .inr ⟨tm, _, htm, rfl, by simp [Instr.opcode], by simp [Instr.opcode]⟩
    | @tstart f s tm htm => exact .inr ⟨tm, _, htm, rfl, fun _ => ⟨rfl, rfl⟩, by simp [Instr.opcode]⟩
    | @ttickExpired f s tm htm => exact .inr ⟨tm, _, htm, rfl, fun _ => ⟨rfl, rfl⟩, fun _ => rfl⟩
    | @tstop f s tm htm => exact .inr ⟨tm, _, htm, rfl, fun _ => ⟨rfl, rfl⟩, fun _ => rfl⟩
    | number => exact .inl (by rw [State.setResult_timers, State.writeNumber_timers])
    | refresh => exact .inl (by rw [State.setResult_timers, State.refreshAll_timers])
    | fsetth => exact .inl (by rw [State.setResult_timers, State.setThreshold_timers])
    | _ => exact .inl rfl

/-- A command keeps every part of the timers that it keeps of the timer it replaces (R32). -/
theorem exec_timers_map {α : Type} (part : Timer → α) (ht : exec i s = .next t)
    (hpart : ∀ old tm : Timer,
      (i.opcode.toNat ≠ 0x40 → tm.relayMask = old.relayMask ∧ tm.timeoutMs = old.timeoutMs) →
      (i.opcode.toNat ∉ [0x40, 0x41] → tm.startTimestamp = old.startTimestamp) → part tm = part old)
    (j : Nat) : (t.timers[j]?).map part = (s.timers[j]?).map part := by
  rcases exec_timers ht with heq | ⟨old, tm, hold, heq, hconfig, hstart⟩
  · rw [heq]
  · rw [heq, State.setTimer_map part hold (hpart old tm hconfig hstart)]

/-- No command changes the size of the pool (R31). -/
theorem exec_timers_length (ht : exec i s = .next t) : t.timers.length = s.timers.length := by
  rcases exec_timers ht with heq | ⟨_, _, _, heq, -⟩
  · rw [heq]
  · rw [heq, State.setTimer_timers, List.length_set]

/-- FSAMPLE samples, or is ignored by a halted block (R104, R116). -/
theorem exec_fsample (f : Fields) (s : State) :
    exec (.fsample f) s = .next (if s.fault then s else s.sample f.t) := by
  change execFsample f s = _
  unfold execFsample
  split <;> rfl

/-- FAULT and CAUSE change only when a block that is not halted takes a fault (R37, R115). -/
theorem exec_fault_or_cause_ne (ht : exec i s = .next t) (hne : t.fault ≠ s.fault ∨ t.cause ≠ s.cause) :
    s.fault = false ∧ ∃ c, t = s.enterFault c := by
  cases hf : s.fault with
  | true =>
    rw [next_inj.1 (ht.symm.trans (exec_of_halted hf i))] at hne
    simp at hne
  | false =>
    rcases exec_next hf ht with ⟨c, -, htc⟩ | ⟨-, hrun, hcause⟩
    · exact ⟨rfl, c, htc⟩
    · simp [hrun, hcause, hf] at hne

/-- Settles O21: the table of writers for the fields, what can happen to a timer for the pool, and the two ways FAULT
and CAUSE can go. -/
theorem onlyTheNamedCommandsWrite : Obligations.OnlyTheNamedCommandsWrite := by
  intro i s t ht
  obtain ⟨hdb, hcolon, hrb, hoe, htimers, havg, hstate, hth, hpins, htrace, hinputs, hcfg⟩ := patch_writers i s t
  have hconfig (hne : i.opcode.toNat ≠ 0x40) := exec_timers_map (fun tm => (tm.relayMask, tm.timeoutMs)) ht
    fun old tm hkeep _ => Prod.ext (hkeep hne).1 (hkeep hne).2
  have hstart (hne : i.opcode.toNat ∉ [0x40, 0x41]) := exec_timers_map Timer.startTimestamp ht
    fun _ _ _ hkeep => hkeep hne
  have hsample : i.opcode.toNat = 0x50 → t = { s with fLast := t.fLast, fAcc := t.fAcc, fSp := t.fSp } := by
    cases i with
    | fsample f =>
      intro
      rw [exec_fsample] at ht
      rw [← next_inj.1 ht]
      split <;> rfl
    | _ f => simp [Instr.opcode]
  have hlength := exec_timers_length ht
  have hflags := exec_fault_or_cause_ne ht
  have ht := exec_eq_patch ht
  refine ⟨fun h => ?_, fun h => ?_, fun h => ?_, fun h => ?_, fun h => ?_, hlength, hconfig, hstart, hflags,
    fun h => ?_, hsample, fun h => ?_, fun h => ?_, fun h => ?_, fun h => ?_, ?_, ?_⟩ <;> rw [ht]
  exacts [hdb h, hcolon h, hrb h, hoe h, htimers h, havg h, hstate h, hth h, hpins h, htrace h, hinputs, hcfg]

/-- Settles O22: the rows of the table of writers that list nothing, or the pins, the chain and the trace. -/
theorem readsChangeOnlyResult : Obligations.ReadsChangeOnlyResult := by
  intro i s t ht hkeep
  have hcause : t.cause = s.cause := by
    by_contra hne
    obtain ⟨hf, c, rfl⟩ := exec_fault_or_cause_ne ht (.inr hne)
    rw [hf] at hkeep
    cases hkeep
  have ht := exec_eq_patch ht
  rw [hkeep, hcause] at ht
  refine ⟨fun hi => ?_, fun hi => ?_⟩
  · cases i with
    | dbread f | rget f | rison f | rmask f | trem f | tactive f | fread f | status f => exact ht
    | _ f => simp [Instr.opcode] at hi
  · cases i with
    | refresh f => exact ht
    | _ f => simp [Instr.opcode] at hi

end Sys2Proof.Machine
end

section
/-! The serial bus (42_serial.md R88 to R91): what the pins and the chain hold after a bit, a byte, a frame and a
refresh that begin with CLK low, and the wire order of a frame (20_memory.md R49). -/

namespace Sys2Proof.Machine

namespace Chain

/-- The chain with one bit shifted in (R40). -/
def shiftIn (ch : Chain) (b : Bool) : Chain :=
  { ch with shift := ch.shift.extractLsb' 0 23 ++ BitVec.ofBool b }

/-- The chain with a byte shifted in, most significant bit first (R40, R88). -/
def shiftByte (ch : Chain) (x : Byte) : Chain :=
  { ch with shift := ch.shift.extractLsb' 0 16 ++ x }

/-- The chain with its shift state latched into the three output registers (R40). -/
def latched (ch : Chain) : Chain :=
  { ch with
    outRelay := ch.shift.extractLsb' 0 8
    outHi := ch.shift.extractLsb' 8 8
    outLo := ch.shift.extractLsb' 16 8 }

/-- The chain after a frame `F` (R89): the three bytes in the shift state, the low byte furthest down, and in the
outputs. Nothing of what the chain held before is left. -/
def holding (F : Frame) : Chain where
  shift := F.extractLsb' 0 8 ++ F.extractLsb' 8 8 ++ F.extractLsb' 16 8
  outRelay := F.extractLsb' 16 8
  outHi := F.extractLsb' 8 8
  outLo := F.extractLsb' 0 8

/-- Each bit moves one place up and the new one stands at the bottom (R40). -/
theorem shiftIn_getLsbD (ch : Chain) (b : Bool) (j : Nat) :
    (ch.shiftIn b).shift.getLsbD j = if j = 0 then b else (decide (j < 24) && ch.shift.getLsbD (j - 1)) := by
  rw [shiftIn, BitVec.getLsbD_append]
  by_cases hj : j = 0
  · simp [hj]
  · rw [if_neg (by omega), if_neg hj, BitVec.getLsbD_extractLsb', Nat.zero_add]
    congr 1
    exact decide_eq_decide.2 (by omega)

/-- Each bit moves eight places up and the new byte stands at the bottom (R40). -/
theorem shiftByte_getLsbD (ch : Chain) (x : Byte) (j : Nat) :
    (ch.shiftByte x).shift.getLsbD j =
      if j < 8 then x.getLsbD j else (decide (j < 24) && ch.shift.getLsbD (j - 8)) := by
  rw [shiftByte, BitVec.getLsbD_append]
  split
  · rfl
  · rw [BitVec.getLsbD_extractLsb', Nat.zero_add]
    congr 1
    exact decide_eq_decide.2 (by omega)

/-- The eight bits of a byte, most significant first, shift the byte in (R88). -/
theorem foldl_shiftIn_msbFirst (ch : Chain) (x : Byte) :
    msbFirst.foldl (fun c i => c.shiftIn (x.getLsbD i)) ch = ch.shiftByte x := by
  have hshift : (msbFirst.foldl (fun c i => c.shiftIn (x.getLsbD i)) ch).shift = (ch.shiftByte x).shift := by
    apply BitVec.eq_of_getLsbD_eq
    intro j hj
    rw [shiftByte_getLsbD]
    simp only [msbFirst, List.foldl_cons, List.foldl_nil, shiftIn_getLsbD]
    interval_cases j <;> rfl
  calc msbFirst.foldl (fun c i => c.shiftIn (x.getLsbD i)) ch
    _ = { ch with shift := (msbFirst.foldl (fun c i => c.shiftIn (x.getLsbD i)) ch).shift } := rfl
    _ = ch.shiftByte x := by rw [hshift]; rfl

/-- Three bytes fill the shift state (R40, R89). -/
theorem shift_shiftByte_three (ch : Chain) (lo hi relay : Byte) :
    (((ch.shiftByte lo).shiftByte hi).shiftByte relay).shift = lo ++ hi ++ relay := by
  apply BitVec.eq_of_getLsbD_eq
  intro j hj
  simp only [shiftByte_getLsbD, BitVec.getLsbD_append]
  interval_cases j <;> simp

/-- The lowest of three bytes. -/
theorem extract_low (x y z : Byte) : (x ++ y ++ z : Frame).extractLsb' 0 8 = z :=
  BitVec.extractLsb'_append_eq_right

/-- The middle one of three bytes. -/
theorem extract_middle (x y z : Byte) : (x ++ y ++ z : Frame).extractLsb' 8 8 = y := by
  rw [BitVec.extractLsb'_append_eq_of_le (by decide)]
  exact BitVec.extractLsb'_append_eq_right

/-- The highest of three bytes. -/
theorem extract_high (x y z : Byte) : (x ++ y ++ z : Frame).extractLsb' 16 8 = x := by
  rw [BitVec.extractLsb'_append_eq_of_le (by decide)]
  exact BitVec.extractLsb'_append_eq_left

/-- The three bytes of a frame, latched, leave nothing of the chain before (R89). -/
theorem latched_shiftByte_three (ch : Chain) (F : Frame) :
    (((ch.shiftByte (F.extractLsb' 0 8)).shiftByte (F.extractLsb' 8 8)).shiftByte (F.extractLsb' 16 8)).latched =
      holding F := by
  rw [latched, shift_shiftByte_three, extract_low, extract_middle, extract_high]
  rfl

end Chain

namespace State

variable {s : State}

/-- One bit on the pins shifts it into the chain and leaves CLK low (R88). -/
theorem driveAll_bitWrites (hclk : s.pins.clk = false) (b : Bool) :
    s.driveAll (bitWrites b) =
      { s with
        pins := ⟨b, false, s.pins.latch⟩
        chain := s.chain.shiftIn b
        trace := s.trace ++ bitWrites b } := by
  simp [bitWrites, State.drive, Chain.onClk, hclk, Chain.shiftIn]

/-- A list of bits of a byte shifts them in, one after the other (R88). -/
theorem driveAll_flatMap_bitWrites (x : Byte) (l : List Nat) (s : State) (hclk : s.pins.clk = false) :
    s.driveAll (l.flatMap fun i => bitWrites (x.getLsbD i)) =
      { s with
        pins := ⟨l.foldl (fun _ i => x.getLsbD i) s.pins.data, false, s.pins.latch⟩
        chain := l.foldl (fun c i => c.shiftIn (x.getLsbD i)) s.chain
        trace := s.trace ++ l.flatMap fun i => bitWrites (x.getLsbD i) } := by
  induction l generalizing s with
  | nil => simp [← hclk]
  | cons i l ih =>
    rw [List.flatMap_cons, driveAll_append, driveAll_bitWrites hclk, ih _ rfl]
    simp

/-- One byte on the pins shifts it into the chain, leaves CLK low and DATA at its last bit (R88). -/
theorem driveAll_byteWrites (hclk : s.pins.clk = false) (x : Byte) :
    s.driveAll (byteWrites x) =
      { s with
        pins := ⟨x.getLsbD 0, false, s.pins.latch⟩
        chain := s.chain.shiftByte x
        trace := s.trace ++ byteWrites x } := by
  rw [byteWrites, driveAll_flatMap_bitWrites x msbFirst s hclk, Chain.foldl_shiftIn_msbFirst]
  rfl

/-- The writes of a frame before its last are a LATCH low and the three bytes (R88). -/
theorem frameWrites_eq (F : Frame) : frameWrites F = (frameWrites F).dropLast ++ [.latch true] := by
  rw [frameWrites, List.dropLast_concat]

/-- Before the latch edge of a frame the chain holds its bytes and the outputs are still the former ones (R89). -/
theorem driveAll_dropLast_frameWrites (hclk : s.pins.clk = false) (F : Frame) :
    s.driveAll (frameWrites F).dropLast =
      { s with
        pins := ⟨F.getLsbD 16, false, false⟩
        chain := ((s.chain.shiftByte (F.extractLsb' 0 8)).shiftByte (F.extractLsb' 8 8)).shiftByte
          (F.extractLsb' 16 8)
        trace := s.trace ++ (frameWrites F).dropLast } := by
  have hlatch : s.driveAll [.latch false] =
      { s with pins := ⟨s.pins.data, false, false⟩, trace := s.trace ++ [.latch false] } := by
    simp [State.drive, Chain.onLatch, hclk]
  rw [frameWrites, List.dropLast_concat, ← List.singleton_append, driveAll_append, hlatch, driveAll_append,
    driveAll_append, driveAll_byteWrites rfl, driveAll_byteWrites rfl, driveAll_byteWrites rfl]
  simp

/-- A frame replaces all that the chain held, and leaves CLK low and LATCH high (R88, R89). -/
theorem emitFrame_of_clk_low (hclk : s.pins.clk = false) (F : Frame) :
    s.emitFrame F =
      { s with
        pins := ⟨F.getLsbD 16, false, true⟩
        chain := Chain.holding F
        trace := s.trace ++ frameWrites F } := by
  have hlatch (u : State) (hu : u.pins.latch = false) : u.drive (.latch true) =
      { u with pins := { u.pins with latch := true }, chain := u.chain.latched
               trace := u.trace ++ [.latch true] } := by
    simp [State.drive, Chain.onLatch, hu, Chain.latched]
  rw [emitFrame, frameWrites_eq, driveAll_append, driveAll_dropLast_frameWrites hclk, driveAll_cons, driveAll_nil,
    hlatch _ rfl]
  simp only [Chain.latched_shiftByte_three, List.append_assoc]

/-- After the frames of some positions the chain holds the last one, whatever it held before (R90). -/
theorem foldl_emitFrame_concat (l : List (Fin 4)) (p : Fin 4) (s : State) (hclk : s.pins.clk = false) :
    (l ++ [p]).foldl (fun u q => u.emitFrame (u.frame q)) s =
      { s with
        pins := ⟨(s.frame p).getLsbD 16, false, true⟩
        chain := Chain.holding (s.frame p)
        trace := s.trace ++ s.framesOf (l ++ [p]) } := by
  induction l generalizing s with
  | nil => simp [emitFrame_of_clk_low hclk, framesOf]
  | cons q l ih =>
    rw [List.cons_append, List.foldl_cons, emitFrame_of_clk_low hclk, ih _ rfl]
    simp [framesOf, frame]

/-- A refresh leaves the pins idle and the frame of position 3 in the chain, whatever the chain held (R90, R91). -/
theorem refreshAll_of_clk_low (hclk : s.pins.clk = false) :
    s.refreshAll =
      { s with
        pins := ⟨(s.frame 3).getLsbD 16, false, true⟩
        chain := Chain.holding (s.frame 3)
        trace := s.trace ++ s.framesOf positions } :=
  foldl_emitFrame_concat [0, 1, 2] 3 s hclk

end State

/-- The low byte of a frame's word (R49). -/
theorem frame_lo (rb : Byte) (w : DisplayWord) : (rb ++ w : Frame).extractLsb' 0 8 = w.extractLsb' 0 8 :=
  BitVec.extractLsb'_append_eq_of_add_le (by decide)

/-- The high byte of a frame's word (R49). -/
theorem frame_hi (rb : Byte) (w : DisplayWord) : (rb ++ w : Frame).extractLsb' 8 8 = w.extractLsb' 8 8 :=
  BitVec.extractLsb'_append_eq_of_add_le (by decide)

/-- The relay byte of a frame (R49). -/
theorem frame_relay (rb : Byte) (w : DisplayWord) : (rb ++ w : Frame).extractLsb' 16 8 = rb :=
  BitVec.extractLsb'_append_eq_left

/-- The two output registers of the display show the word of the frame (R41, R49). -/
theorem holding_shownWord (rb : Byte) (w : DisplayWord) :
    (Chain.holding (rb ++ w)).outHi ++ (Chain.holding (rb ++ w)).outLo = w := by
  rw [Chain.holding, frame_hi, frame_lo, BitVec.extractLsb'_append_extractLsb'_eq_extractLsb' (by rfl)]
  exact BitVec.extractLsb'_eq_self

/-- Settles O41: the three bytes shifted in before the latch edge, and latched by it. -/
theorem chainAfterAFrame : Obligations.ChainAfterAFrame := by
  intro s rb w hclk
  constructor
  · rw [State.driveAll_dropLast_frameWrites hclk]
    simp only [frame_lo, frame_hi, frame_relay]
    rw [Chain.shift_shiftByte_three]
    exact ⟨Chain.extract_high _ _ _, Chain.extract_middle _ _ _, Chain.extract_low _ _ _, rfl, rfl, rfl⟩
  · rw [State.emitFrame_of_clk_low hclk]
    exact ⟨frame_lo rb w, frame_hi rb w, frame_relay rb w⟩

/-! The edges of the pins in a list of writes (R88). -/

/-- A byte has eight clock edges, from CLK low to CLK low (R88). -/
theorem clkRises_byteWrites_append (x : Byte) (ws : List PinWrite) :
    clkRises false (byteWrites x ++ ws) = 8 + clkRises false ws := by
  simp [byteWrites, msbFirst, bitWrites, clkRises]
  omega

/-- A byte has no edge of LATCH (R88). -/
theorem latchRises_byteWrites_append (level : Bool) (x : Byte) (ws : List PinWrite) :
    latchRises level (byteWrites x ++ ws) = latchRises level ws := by
  simp [byteWrites, msbFirst, bitWrites, latchRises]

/-- A byte sends its eight bits, most significant first, whatever DATA was (R49, R88). -/
theorem sentBits_byteWrites_append (d : Bool) (x : Byte) (ws : List PinWrite) :
    sentBits d false (byteWrites x ++ ws) = msbFirst.map x.getLsbD ++ sentBits (x.getLsbD 0) false ws := by
  simp [byteWrites, msbFirst, bitWrites, sentBits]

/-- A frame has 24 clock edges, from CLK low to CLK low (R88). -/
theorem clkRises_frameWrites_append (F : Frame) (ws : List PinWrite) :
    clkRises false (frameWrites F ++ ws) = 24 + clkRises false ws := by
  simp only [frameWrites, List.cons_append, List.append_assoc, clkRises, clkRises_byteWrites_append,
    List.nil_append]
  omega

/-- A frame has one latch edge, from LATCH high to LATCH high (R88). -/
theorem latchRises_frameWrites_append (F : Frame) (ws : List PinWrite) :
    latchRises true (frameWrites F ++ ws) = 1 + latchRises true ws := by
  simp [frameWrites, latchRises, latchRises_byteWrites_append]

/-- A frame by itself has its 24 clock edges (R88). -/
theorem clkRises_frameWrites (F : Frame) : clkRises false (frameWrites F) = 24 := by
  rw [← List.append_nil (frameWrites F)]
  exact clkRises_frameWrites_append F []

/-- A frame by itself has its latch edge (R88). -/
theorem latchRises_frameWrites (F : Frame) : latchRises true (frameWrites F) = 1 := by
  rw [← List.append_nil (frameWrites F)]
  exact latchRises_frameWrites_append F []

/-- Settles O40: the bytes in the order of R88, each most significant bit first. -/
theorem wireOrderOfAFrame : Obligations.WireOrderOfAFrame := by
  intro F data
  refine ⟨?_, clkRises_frameWrites F, latchRises_frameWrites F⟩
  simp [frameWrites, sentBits, sentBits_byteWrites_append, msbFirst]

/-- Settles O42: the four frames one after the other, the last of which stays in the chain. -/
theorem refreshDrivesFourFrames : Obligations.RefreshDrivesFourFrames := by
  intro s f hf hclk hlatch ha hb hc ht
  have hr := (Instr.reservedClear_refresh f).2 ⟨ha, hb, hc, ht⟩
  refine ⟨_, s.framesOf positions, Effect.refresh.exec_eq hf fun _ => hr, ?_⟩
  rw [State.refreshAll_of_clk_low hclk, hclk, hlatch]
  refine ⟨rfl, ?_, ?_, ?_, frame_relay _ _, holding_shownWord _ _, rfl, rfl⟩
  · simp [State.framesOf, positions, State.frame]
  · simp [State.framesOf, positions, clkRises_frameWrites_append, clkRises_frameWrites]
  · simp [State.framesOf, positions, latchRises_frameWrites_append, latchRises_frameWrites]

end Sys2Proof.Machine
end

section
/-! The select bits and unused bits of the display words of a legal parameter set (10_state.md R18 to R25), and what
the golden vector fixes of its pins (R19). -/

namespace Sys2Proof.Params

variable {p : Params}

/-- The select bit of a position, read at a pin (R24). -/
theorem dst_getLsbD (p : Params) (q : Fin 4) (i : Fin 16) :
    (p.dst q).getLsbD i.val = decide (p.selBit.get q = i) := by
  rw [dst, BitVec.getLsbD_twoPow]
  simp [Fin.ext_iff]

/-- A position's select bit is one of the four (R20, R24). -/
theorem dst_and_selMaskAll (p : Params) (q : Fin 4) : p.dst q &&& p.selMaskAll = p.dst q := by
  apply BitVec.eq_of_getLsbD_eq
  intro i _
  simp only [selMaskAll, BitVec.getLsbD_and, BitVec.getLsbD_or]
  match q with
  | 0 | 1 | 2 | 3 => simp +contextual [Bool.and_eq_left_iff_imp]

/-- No unused bit is a select bit (R18). -/
theorem dst_and_unusedMask (p : Params) (q : Fin 4) : p.dst q &&& p.unusedMask = 0 := by
  rw [← dst_and_selMaskAll, unusedMask]
  apply BitVec.eq_of_getLsbD_eq
  intro i _
  simp only [BitVec.getLsbD_and, BitVec.getLsbD_not, BitVec.getLsbD_or]
  cases p.selMaskAll.getLsbD i <;> simp

/-- The decimal point is a segment (R25). -/
theorem dpMask_and_polMask (p : Params) : p.dpMask &&& p.polMask = p.dpMask := by
  rw [dpMask, BitVec.and_comm, BitVec.and_twoPow, if_pos (p.polMask_getLsbD_seg .dp)]

/-- So it shares no bit with a word that shares none with the segments. -/
theorem dpMask_and_eq_zero {w : DisplayWord} (hw : p.polMask &&& w = 0) : p.dpMask &&& w = 0 := by
  rw [← dpMask_and_polMask, BitVec.and_assoc, hw]
  exact BitVec.and_zero

/-- The pins of the select lines are distinct (R19). -/
theorem Legal.selBit_injective (h : p.Legal) : Function.Injective p.selBit.get := by
  obtain ⟨hpins, -⟩ := h
  obtain ⟨-, hsel, -⟩ := List.nodup_append.1 hpins
  exact fun q r hqr => Fin.ext ((List.Nodup.getElem_inj_iff hsel).1 hqr)

/-- The decimal point's bit is the one bit of DP_MASK (R25). -/
theorem dpMask_getLsbD_dp (p : Params) : p.dpMask.getLsbD (p.segBit.bit .dp).val = true := by
  rw [dpMask, BitVec.getLsbD_twoPow]
  simp

/-- No segment's pin is a select line's (R19, R24). -/
theorem Legal.dst_getLsbD_seg (h : p.Legal) (q : Fin 4) (seg : Segment) :
    (p.dst q).getLsbD (p.segBit.bit seg).val = false := by
  rw [dst_getLsbD, decide_eq_false_iff_not]
  exact (h.segBit_ne_selBit seg q).symm

/-- No entry of the table has a select bit (R22). -/
theorem Legal.ct_getLsbD_selBit (h : p.Legal) (k : Fin 17) (q : Fin 4) :
    (p.ct k).getLsbD (p.selBit.get q).val = false := by
  have hzero : p.ct k &&& p.dst q = 0 := ct_and_eq_zero k (h.polMask_and_dst q)
  have hbit := congrArg (·.getLsbD (p.selBit.get q).val) hzero
  simp only [BitVec.getLsbD_and, dst_getLsbD, decide_true, Bool.and_true] at hbit
  exact hbit.trans BitVec.getLsbD_zero

/-- A display word of position `q` that the invariant allows: its own select bit and no other, and no unused bit
(R20, R22). -/
def WordOk (p : Params) (q : Fin 4) (w : DisplayWord) : Prop :=
  w &&& p.selMaskAll = p.dst q ∧ w &&& p.unusedMask = 0

/-- An entry of the table with the select bit is such a word (R73). -/
theorem Legal.wordOk_ct (h : p.Legal) (k : Fin 17) (q : Fin 4) : p.WordOk q (p.ct k ||| p.dst q) := by
  constructor
  · rw [BitVec.and_or_distrib_right, ct_and_eq_zero k h.polMask_and_selMaskAll, dst_and_selMaskAll]
    exact BitVec.zero_or
  · rw [BitVec.and_or_distrib_right, ct_and_eq_zero k p.polMask_and_unusedMask, dst_and_unusedMask]
    rfl

/-- Outside the decimal point, writing the colon bit asserts the select bit and does nothing else (R77). -/
theorem colonWord_and {m : DisplayWord} (hm : p.dpMask &&& m = 0) (q : Fin 4) (lit : Bool) (w : DisplayWord) :
    Machine.colonWord p q lit w &&& m = (w &&& m) ||| (p.dst q &&& m) := by
  apply BitVec.eq_of_getLsbD_eq
  intro i _
  have hbit : (p.dpMask.getLsbD i && m.getLsbD i) = false := by
    rw [← BitVec.getLsbD_and, hm]
    exact BitVec.getLsbD_zero
  cases lit with
  | true => cases hmi : m.getLsbD i <;> simp_all [Machine.colonWord]
  | false => cases hmi : m.getLsbD i <;> simp_all [Machine.colonWord]

/-- So it leaves such a word such a word (R20, R77). -/
theorem Legal.wordOk_colonWord (h : p.Legal) {q : Fin 4} {w : DisplayWord} (hw : p.WordOk q w) (lit : Bool) :
    p.WordOk q (Machine.colonWord p q lit w) := by
  obtain ⟨hsel, hunused⟩ := hw
  constructor
  · rw [colonWord_and (dpMask_and_eq_zero h.polMask_and_selMaskAll), hsel, dst_and_selMaskAll, BitVec.or_self]
  · rw [colonWord_and (dpMask_and_eq_zero p.polMask_and_unusedMask), hunused, dst_and_unusedMask]
    rfl

/-- Of the four select bits such a word has its own only (R20). -/
theorem WordOk.getLsbD_selBit (h : p.Legal) {r : Fin 4} {w : DisplayWord} (hw : p.WordOk r w) (q : Fin 4) :
    w.getLsbD (p.selBit.get q).val = (q == r) := by
  obtain ⟨hsel, -⟩ := hw
  have hmask := congrArg (·.getLsbD (p.selBit.get q).val) (p.dst_and_selMaskAll q)
  have hbit := congrArg (·.getLsbD (p.selBit.get q).val) hsel
  simp only [BitVec.getLsbD_and, dst_getLsbD, decide_true, Bool.true_and] at hmask hbit
  rw [hmask, Bool.and_true] at hbit
  rw [hbit, Bool.eq_iff_iff, decide_eq_true_iff, beq_iff_eq, h.selBit_injective.eq_iff, eq_comm]

/-! The golden vector (R19). -/

/-- The four pins of the golden vector (R19). -/
def goldenPins : List (Fin 16) := [9, 10, 13, 14]

/-- The bits of symbol 3 at position 0 are these four pins (R19). -/
theorem Legal.golden_getLsbD (h : p.Legal) (i : Fin 16) :
    ((p.ct 3).getLsbD i.val || (p.dst 0).getLsbD i.val) = decide (i ∈ goldenPins) := by
  obtain ⟨-, hgolden, -⟩ := h
  rw [← BitVec.getLsbD_or, hgolden]
  revert i
  decide

/-- A segment is dark in symbol 3 exactly when its pin is one of them (R19, R22). -/
theorem Legal.dark_iff_mem_goldenPins (h : p.Legal) (seg : Segment) :
    (p.glyph.get 3).contains seg = false ↔ p.segBit.bit seg ∈ goldenPins := by
  have hbit := h.golden_getLsbD (p.segBit.bit seg)
  rw [h.ct_getLsbD_seg, h.dst_getLsbD_seg, Bool.or_false] at hbit
  rw [← decide_eq_true_iff (p := _ ∈ goldenPins), ← hbit, Bool.not_eq_true']

/-- The pin of a select line is one of them for position 0 only (R19, R24). -/
theorem Legal.selBit_mem_goldenPins_iff (h : p.Legal) (q : Fin 4) : p.selBit.get q ∈ goldenPins ↔ q = 0 := by
  have hbit := h.golden_getLsbD (p.selBit.get q)
  rw [h.ct_getLsbD_selBit, Bool.false_or, dst_getLsbD, decide_eq_decide, h.selBit_injective.eq_iff] at hbit
  rw [← hbit, eq_comm]

/-- Each of them is the select line of position 0 or a segment dark in symbol 3 (R19, R22). -/
theorem Legal.eq_selBit_or_dark (h : p.Legal) {i : Fin 16} (hi : i ∈ goldenPins) :
    i = p.selBit.get 0 ∨ ∃ seg, (p.glyph.get 3).contains seg = false ∧ p.segBit.bit seg = i := by
  have hbit := h.golden_getLsbD i
  rw [decide_eq_true hi, Bool.or_eq_true, dst_getLsbD, decide_eq_true_iff] at hbit
  rcases hbit with hct | hsel
  · have hpol := congrArg (·.getLsbD i.val) (p.ct_and_polMask 3)
    simp only [BitVec.getLsbD_and, hct, Bool.true_and] at hpol
    rw [polMask, orBits_getLsbD, decide_eq_true_iff, List.mem_map] at hpol
    obtain ⟨seg, -, rfl⟩ := hpol
    exact .inr ⟨seg, (h.dark_iff_mem_goldenPins seg).2 hi, rfl⟩
  · exact .inl hsel.symm

/-- The four pins are the select line of position 0 and the segments dark in symbol 3, each once (R19). -/
theorem Legal.goldenPins_perm (h : p.Legal) :
    goldenPins.Perm (p.selBit.get 0 ::
      (Segment.all.filter fun seg => !(p.glyph.get 3).contains seg).map p.segBit.bit) := by
  have hsegs : (Segment.all.filter fun seg => !(p.glyph.get 3).contains seg).Nodup :=
    List.Nodup.filter _ (by decide)
  have hnotMem : p.selBit.get 0 ∉
      (Segment.all.filter fun seg => !(p.glyph.get 3).contains seg).map p.segBit.bit := by
    rw [List.mem_map]
    rintro ⟨seg, -, hseg⟩
    exact h.segBit_ne_selBit seg 0 hseg
  refine (List.perm_ext_iff_of_nodup (by decide)
    (List.nodup_cons.2 ⟨hnotMem, hsegs.map h.segBit_injective⟩)).2 fun i => ?_
  rw [List.mem_cons, List.mem_map]
  constructor
  · intro hi
    rcases h.eq_selBit_or_dark hi with hsel | ⟨seg, hdark, hseg⟩
    · exact .inl hsel
    · exact .inr ⟨seg, List.mem_filter.2 ⟨seg.mem_all, by rw [hdark]; rfl⟩, hseg⟩
  · rintro (rfl | ⟨seg, hmem, rfl⟩)
    · exact (h.selBit_mem_goldenPins_iff 0).2 rfl
    · exact (h.dark_iff_mem_goldenPins seg).1 (by simpa using (List.mem_filter.1 hmem).2)

/-- Symbol 3 lights five of the eight segments, since three are dark (R19). -/
theorem Legal.length_filter_lit (h : p.Legal) :
    (Segment.all.filter fun seg => (p.glyph.get 3).contains seg).length = 5 := by
  have hdark := h.goldenPins_perm.length_eq
  have hboth := List.length_eq_length_filter_add (l := Segment.all) fun seg => (p.glyph.get 3).contains seg
  simp only [List.length_cons, List.length_map] at hdark
  rw [show goldenPins.length = 4 from rfl] at hdark
  rw [show Segment.all.length = 8 from rfl] at hboth
  omega

/-- The four pins, by their numbers. -/
theorem mem_goldenPins_iff (i : Fin 16) : i ∈ goldenPins ↔ i.val ∈ [9, 10, 13, 14] := by
  revert i
  decide

/-- Settles O26: the four pins are the select line of position 0 and the dark segments, so three segments are dark. -/
theorem goldenVectorFixesPins : Obligations.GoldenVectorFixesPins := by
  intro p h
  simp only [← mem_goldenPins_iff]
  exact ⟨(h.selBit_mem_goldenPins_iff 0).2 rfl, h.length_filter_lit, h.dark_iff_mem_goldenPins,
    fun q hq => (h.selBit_mem_goldenPins_iff q).not.2 hq⟩

end Sys2Proof.Params
end

section
/-! The invariant of the machine's states (10_state.md R20, R22; 44_freq.md R104; 60_exceptions.md R113), kept by
every step, and the induction over the events of a run (70_reset_and_hazards.md R130). -/

namespace Sys2Proof.Machine

variable {i : Instr} {e : Input} {s t : State}

namespace State.Inv

/-- Under the invariant each display word is one of its position (R20, R22). -/
theorem wordOk (h : s.Inv) (q : Fin 4) : s.cfg.WordOk q (s.db.get q) := ⟨h.select q, h.unused q⟩

/-- The invariant looks at no waiting event, at no record of the trace, and at neither RESULT nor the chain. -/
theorem withUnwatched (h : s.Inv) (es : List Input) (ws : List PinWrite) (r : Word32) (ch : Chain) :
    ({ s with inputs := es, trace := ws, result := r, chain := ch } : State).Inv :=
  ⟨h.legal, h.pool, h.select, h.unused, h.smoothed, h.clkIdle, h.latchIdle, h.causeNone, h.causeNamed⟩

/-- It holds after a reset with legal parameters (R20, R46). -/
theorem of_powerUp {p : Params} (ch : Chain) (hp : p.Legal) : (State.powerUp p ch).Inv where
  legal := hp
  pool := initialTimers_length p
  select q := by
    rw [State.powerUp_db_get]
    exact (hp.wordOk_ct 10 q).1
  unused q := by
    rw [State.powerUp_db_get]
    exact (hp.wordOk_ct 10 q).2
  smoothed := BitVec.zero_ushiftRight.symm
  clkIdle := rfl
  latchIdle := rfl
  causeNone _ := rfl
  causeNamed := nofun

/-- So it holds after a reset event of a machine that has it (R128). -/
theorem of_resetBlock (h : s.Inv) (ch : Chain) : (State.resetBlock { s with chain := ch }).Inv :=
  (of_powerUp ch h.legal).withUnwatched s.inputs _ 0 ch

end State.Inv

/-- Every command leaves the averager alone or keeps its law (R104). -/
theorem exec_smoothed (ht : exec i s = .next t) (h : s.fSp = s.fAcc >>> s.cfg.smoothShift.val) :
    t.fSp = t.fAcc >>> t.cfg.smoothShift.val := by
  cases i with
  | fsample f =>
    rw [exec_fsample] at ht
    rw [← next_inj.1 ht]
    split
    · exact h
    · rfl
  | _ f =>
    rw [exec_eq_patch ht]
    exact h

/-- Every command leaves CLK low and LATCH high between the events (R88). -/
theorem exec_pins_idle (ht : exec i s = .next t) (hclk : s.pins.clk = false) (hlatch : s.pins.latch = true) :
    t.pins.clk = false ∧ t.pins.latch = true := by
  rcases exec_cases ht with ⟨-, rfl⟩ | ⟨-, c, -, rfl⟩ | ⟨-, -, -, h⟩
  · exact ⟨hclk, hlatch⟩
  · exact ⟨hclk, hlatch⟩
  · cases h with
    | refresh =>
      rw [State.setResult_pins, State.refreshAll_of_clk_low hclk]
      exact ⟨rfl, rfl⟩
    | number | fsetth => simp [hclk, hlatch]
    | _ => exact ⟨hclk, hlatch⟩

/-- A fault saves one of the causes 1 to 9 (R113). -/
theorem FaultCause.code_toNat (c : FaultCause) : 1 ≤ c.code.toNat ∧ c.code.toNat ≤ 9 := by
  cases c <;> decide

/-- Taking a fault keeps the invariant (R115). -/
theorem State.Inv.enterFault (h : s.Inv) (c : FaultCause) : (s.enterFault c).Inv :=
  ⟨h.legal, h.pool, h.select, h.unused, h.smoothed, h.clkIdle, h.latchIdle, nofun, fun _ => c.code_toNat⟩

/-- Every command keeps the invariant: each clause by what a command can do to its fields. -/
theorem State.Inv.exec (h : s.Inv) (ht : exec i s = .next t) : t.Inv := by
  by_cases hflags : t.fault ≠ s.fault ∨ t.cause ≠ s.cause
  · obtain ⟨-, c, rfl⟩ := exec_fault_or_cause_ne ht hflags
    exact h.enterFault c
  · push Not at hflags
    obtain ⟨hfault, hcause⟩ := hflags
    have hcfg := exec_cfg ht
    obtain ⟨hclk, hlatch⟩ := exec_pins_idle ht h.clkIdle h.latchIdle
    have hword (q : Fin 4) : t.cfg.WordOk q (t.db.get q) := by
      rw [hcfg]
      rcases exec_db_get ht q with hw | ⟨k, hw⟩ | ⟨lit, hw⟩ <;> rw [hw]
      · exact h.wordOk q
      · exact h.legal.wordOk_ct k q
      · exact h.legal.wordOk_colonWord (h.wordOk q) lit
    exact
      { legal := hcfg ▸ h.legal
        pool := by rw [exec_timers_length ht, hcfg, h.pool]
        select := fun q => (hword q).1
        unused := fun q => (hword q).2
        smoothed := exec_smoothed ht h.smoothed
        clkIdle := hclk
        latchIdle := hlatch
        causeNone := by rw [hfault, hcause]; exact h.causeNone
        causeNamed := by rw [hfault, hcause]; exact h.causeNamed }

/-- Every event keeps the invariant. -/
theorem State.Inv.deliver (h : s.Inv) (ht : deliver e s = .next t) : t.Inv := by
  cases e with
  | command w =>
    change presentCommand w s = .next t at ht
    rcases presentCommand_cases w s with ⟨-, hport⟩ | ⟨i, -, -, -, hport⟩
    · rw [hport] at ht
      cases hf : s.fault with
      | true =>
        rw [illegalOnPort_halted hf] at ht
        exact next_inj.1 ht ▸ h.withUnwatched s.inputs s.trace 0 s.chain
      | false =>
        rw [illegalOnPort_running hf] at ht
        exact next_inj.1 ht ▸ h.enterFault _
    · exact h.exec (hport ▸ ht)
  | edge now => exact h.exec (i := .fsample (edgeFields now)) ht
  | reset presented => exact next_inj.1 ht ▸ h.of_resetBlock s.chain
  | powerCycle ch presented => exact next_inj.1 ht ▸ h.of_resetBlock ch

/-- Settles O16: DB holds blank words with their select bits, and every other clause is a reset value. -/
theorem everyLegalResetSatisfiesInvariant : Obligations.EveryLegalResetSatisfiesInvariant :=
  fun _ ch hp => .of_powerUp ch hp

/-- Settles O17: INSTANCE_T is legal. -/
theorem resetStateSatisfiesInvariant : Obligations.ResetStateSatisfiesInvariant :=
  .of_powerUp Chain.named (by decide)

/-- Settles O18: a step waits or delivers an event. -/
theorem everyStepKeepsInvariant : Obligations.EveryStepKeepsInvariant := by
  intro s t h ht
  cases hin : s.inputs with
  | nil => exact next_inj.1 ((step_idle hin).symm.trans ht) ▸ h
  | cons e rest =>
    exact (h.withUnwatched rest s.trace s.result s.chain).deliver ((step_cons hin).symm.trans ht)

/-! Runs (R57, R130). -/

/-- The step on an event that waits alone delivers it. -/
theorem deliver_stepTo (e : Input) (s : State) :
    deliver e { s with inputs := [] } = .next (stepTo { s with inputs := [e] }) := by
  obtain ⟨t, ht⟩ := deliver_total e { s with inputs := [] }
  have hstep : step { s with inputs := [e] } = .next t := (step_cons rfl).trans ht
  rw [stepTo_next hstep, ht]

/-- What every event keeps, and what does not look at the waiting events, is kept along a run (R130). -/
theorem runEvents_keeps {P : State → Prop} (hwait : ∀ s, P s → P { s with inputs := [] })
    (hevent : ∀ e s t, P s → deliver e s = .next t → P t) (es : List Input) (s : State) (hs : P s) :
    P (runEvents es s) := by
  induction es generalizing s with
  | nil => exact hwait s hs
  | cons e es ih =>
    rw [runEvents_cons]
    exact ih _ (hevent e _ _ (hwait s hs) (deliver_stepTo e s))

/-- No event changes the parameters (R43). -/
theorem deliver_cfg (ht : deliver e s = .next t) : t.cfg = s.cfg := by
  cases e with
  | command w =>
    change presentCommand w s = .next t at ht
    rcases presentCommand_cases w s with ⟨-, hport⟩ | ⟨i, -, -, -, hport⟩
    · rw [hport, illegalOnPort] at ht
      split at ht <;> rw [← next_inj.1 ht] <;> rfl
    · exact exec_cfg (hport ▸ ht)
  | edge now => exact exec_cfg (i := .fsample (edgeFields now)) ht
  | reset presented => rw [← next_inj.1 ht, State.resetBlock_cfg]
  | powerCycle ch presented => rw [← next_inj.1 ht, State.resetBlock_cfg]

/-- No run changes them. -/
theorem runEvents_cfg (es : List Input) (s : State) : (runEvents es s).cfg = s.cfg :=
  runEvents_keeps (P := fun t => t.cfg = s.cfg) (fun _ h => h) (fun _ _ _ h ht => (deliver_cfg ht).trans h) es s rfl

/-- A run ends with no event waiting (R130). -/
theorem runEvents_inputs (es : List Input) (s : State) : (runEvents es s).inputs = [] := by
  induction es generalizing s with
  | nil => rfl
  | cons e es ih => rw [runEvents_cons, ih]

/-- A run of two lists one after the other is the run of both (R57). -/
theorem runEvents_append (es es' : List Input) (s : State) :
    runEvents (es ++ es') s = runEvents es' (runEvents es s) := by
  induction es generalizing s with
  | nil => rfl
  | cons e es ih => rw [List.cons_append, runEvents_cons, runEvents_cons, ih]

/-- The invariant holds along every run (R20). -/
theorem State.Inv.runEvents (h : s.Inv) (es : List Input) : (runEvents es s).Inv :=
  runEvents_keeps (fun u hu => hu.withUnwatched [] u.trace u.result u.chain) (fun _ _ _ hu ht => hu.deliver ht) es s h

/-- A command that changes a display word asserts the word's select bit (R73, R77). -/
theorem exec_db_get_and_dst (ht : exec i s = .next t) {q : Fin 4} (hne : t.db.get q ≠ s.db.get q) :
    t.db.get q &&& s.cfg.dst q = s.cfg.dst q := by
  have habsorb (w : DisplayWord) : (w ||| s.cfg.dst q) &&& s.cfg.dst q = s.cfg.dst q := by
    apply BitVec.eq_of_getLsbD_eq
    intro i _
    simp +contextual [Bool.and_eq_right_iff_imp]
  rcases exec_db_get ht q with hw | ⟨k, hw⟩ | ⟨lit, hw⟩
  · exact absurd hw hne
  · rw [hw, habsorb]
  · rw [hw, colonWord]
    split <;> exact habsorb _

/-- Settles O19: the invariant along the run, whose parameters are those of the reset state; and the three things a
command can leave in a word. -/
theorem selectBitsAlongEveryRun : Obligations.SelectBitsAlongEveryRun := by
  refine ⟨fun p ch es hp q => ?_, fun i s t q ht hne => exec_db_get_and_dst ht hne⟩
  have hselect := ((State.Inv.of_powerUp ch hp).runEvents es).select q
  rwa [runEvents_cfg] at hselect

/-- Settles O20: by induction on the first list. -/
theorem runsTakeEventsInOrder : Obligations.RunsTakeEventsInOrder :=
  ⟨fun s es => ⟨runEvents_inputs es s, runEvents_cfg es s⟩, fun s es es' => runEvents_append es es' s⟩

/-- A run records one RESULT for every command word (R63, R130). -/
theorem length_resultsAlong (es : List Input) (s : State) :
    (resultsAlong es s).length = (es.filter Input.isCommand).length := by
  induction es generalizing s with
  | nil => rfl
  | cons e es ih =>
    rw [resultsAlong_cons, List.length_append, ih, List.filter_cons]
    split
    · exact Nat.add_comm _ _
    · exact Nat.zero_add _

/-- The records of two lists are joined as the lists are (R130). -/
theorem resultsAlong_append (es es' : List Input) (s : State) :
    resultsAlong (es ++ es') s = resultsAlong es s ++ resultsAlong es' (runEvents es s) := by
  induction es generalizing s with
  | nil => exact (resultsAlong_withInputs es' [] s).symm
  | cons e es ih => rw [List.cons_append, resultsAlong_cons, ih, runEvents_cons, resultsAlong_cons, List.append_assoc]

/-- The record of a command at the end of a list stands behind those before it (R63, R130). -/
theorem resultsAlong_concat_command (es : List Input) (w : CommandWord) (s : State) :
    resultsAlong (es ++ [.command w]) s = resultsAlong es s ++ [(runEvents (es ++ [.command w]) s).result] := by
  rw [resultsAlong_append, runEvents_append, runEvents_cons]
  rfl

/-- Settles O60: the events up to a command are a list that ends with it, and the record of the others stands behind
theirs. -/
theorem runsRecordEveryResult : Obligations.RunsRecordEveryResult := by
  refine ⟨length_resultsAlong, fun es s n w hw => ?_, resultsAlong_append⟩
  obtain ⟨hn, hw⟩ := List.getElem?_eq_some_iff.1 hw
  have htake : es.take (n + 1) = es.take n ++ [.command w] := by rw [List.take_succ_eq_append_getElem hn, hw]
  have hsplit : resultsAlong es s =
      resultsAlong (es.take (n + 1)) s ++ resultsAlong (es.drop (n + 1)) (runEvents (es.take (n + 1)) s) := by
    rw [← resultsAlong_append, List.take_append_drop]
  rw [runFrom_results, runFrom_state, hsplit, htake, resultsAlong_concat_command, ← length_resultsAlong _ s,
    List.append_assoc, List.getElem?_append_right (Nat.le_refl _), Nat.sub_self]
  rfl

/-- Settles O43: the chain holds the frame of the last position, whose word has its own select bit only. -/
theorem refreshShowsOneDigitAtATime : Obligations.RefreshShowsOneDigitAtATime := by
  intro s p h
  have htake : positions.take (p.val + 1) = positions.take p.val ++ [p] := by
    revert p
    decide
  rw [htake, State.foldl_emitFrame_concat _ _ _ h.clkIdle]
  have hshown := holding_shownWord s.rb (s.db.get p)
  have henabled := (h.wordOk p).getLsbD_selBit h.legal
  simp only [State.segmentLit, State.digitEnabled, State.shownWord, State.frame, hshown, henabled]
  refine ⟨frame_relay _ _, trivial, fun _ => trivial, fun seg => ?_⟩
  rw [beq_self_eq_true, Bool.true_and]

end Sys2Proof.Machine
end

section
/-! A command beside an edge, beside another chain, and beside itself: commuting with an edge (20_memory.md R57,
60_exceptions.md R122), independence from the chain's contents (70_reset_and_hazards.md R131), and idempotence
(20_memory.md R55). -/

namespace Sys2Proof.Machine

variable {i : Instr} {s t : State}

/-! An edge (R122). -/

/-- RESULT is no register of the averager. -/
theorem State.setResult_sample (r now : Word32) (s : State) :
    (s.sample now).setResult r = (s.setResult r).sample now := rfl

/-- NUMBER's writes do not look at the averager, nor an edge at DB. -/
theorem State.writeNumber_sample (d v : Nat) (now : Word32) (s : State) :
    (s.sample now).writeNumber d v = (s.writeNumber d v).sample now :=
  List.foldl_hom (State.sample now) fun _ _ => rfl

/-- Pin writes do not look at the averager, nor an edge at the pins. -/
theorem State.driveAll_sample (ws : List PinWrite) (now : Word32) (s : State) :
    (s.sample now).driveAll ws = (s.driveAll ws).sample now :=
  List.foldl_hom (State.sample now) fun _ _ => rfl

/-- Nor does a refresh. -/
theorem State.refreshAll_sample (now : Word32) (s : State) :
    (s.sample now).refreshAll = s.refreshAll.sample now := by
  rw [refreshAll_driveAll, refreshAll_driveAll]
  exact driveAll_sample _ now s

/-- Nor does a threshold write. -/
theorem State.setThreshold_sample (sel : ThresholdSel) (v now : Word32) (s : State) :
    (s.sample now).setThreshold sel v = (s.setThreshold sel v).sample now := by
  cases sel <;> rfl

/-- The rule of a command that reads no register of the averager commutes with an edge (R122). -/
theorem Effect.sample (h : Effect i s t) (hi : i.opcode.toNat ∉ [0x50, 0x51, 0x53]) (now : Word32) :
    Effect i (s.sample now) (t.sample now) := by
  cases h with
  | fsample | ftick | fread => simp [Instr.opcode] at hi
  | number hd =>
    have h := Effect.number (s := s.sample now) hd
    rwa [State.writeNumber_sample, State.setResult_sample] at h
  | @refresh f =>
    have h := Effect.refresh (f := f) (s := s.sample now)
    rwa [State.refreshAll_sample, State.setResult_sample] at h
  | fsetth hsel =>
    have h := Effect.fsetth (s := s.sample now) hsel
    rwa [State.setThreshold_sample, State.setResult_sample] at h
  | digit hp hk => exact .digit (s := s.sample now) hp hk
  | @ttickExpired f s tm htm hexp => exact .ttickExpired (s := s.sample now) htm hexp
  | ttickRunning htm hexp => exact .ttickRunning (s := s.sample now) htm hexp
  | message hx | dbread hx | tcfg hx | tstart hx | tstop hx | trem hx | tactive hx =>
    all_goals
      constructor
      exact hx
  | colon | tcolon | rset | rsetn | rget | rison | rmask | renable | rdisable | status =>
    all_goals constructor

/-- Settles O24: a command that does not fault does what its rule says, before the edge and after it. -/
theorem commandsCommuteWithEdges : Obligations.CommandsCommuteWithEdges := by
  intro i s t now hi hf ht hrun
  obtain ⟨hr, h⟩ := effect_of_exec ht hf hrun
  have hedge (u : State) (hu : u.fault = false) : exec (.fsample ⟨0, 0, 0, now⟩) u = .next (u.sample now) :=
    Effect.fsample.exec_eq hu nofun
  exact ⟨t.sample now, s.sample now, hedge t hrun, hedge s hf, (h.sample hi now).exec_eq hf hr⟩

/-! Another chain (R131). -/

/-- The machine with other contents of the external chain. -/
def State.withChain (ch : Chain) (s : State) : State := { s with chain := ch }

/-- RESULT is not in the chain. -/
theorem State.setResult_withChain (r : Word32) (ch : Chain) (s : State) :
    (s.withChain ch).setResult r = (s.setResult r).withChain ch := rfl

/-- NUMBER's writes do not look at the chain. -/
theorem State.writeNumber_withChain (d v : Nat) (ch : Chain) (s : State) :
    (s.withChain ch).writeNumber d v = (s.writeNumber d v).withChain ch :=
  List.foldl_hom (State.withChain ch) fun _ _ => rfl

/-- Nor does a threshold write. -/
theorem State.setThreshold_withChain (sel : ThresholdSel) (v : Word32) (ch : Chain) (s : State) :
    (s.withChain ch).setThreshold sel v = (s.setThreshold sel v).withChain ch := by
  cases sel <;> rfl

/-- The rule of no command but REFRESH looks at the chain (R40). -/
theorem Effect.withChain (h : Effect i s t) (hi : i.opcode.toNat ≠ 0x30) (ch : Chain) :
    Effect i (s.withChain ch) (t.withChain ch) := by
  cases h with
  | refresh => exact absurd rfl hi
  | number hd =>
    have h := Effect.number (s := s.withChain ch) hd
    rwa [State.writeNumber_withChain, State.setResult_withChain] at h
  | fsetth hsel =>
    have h := Effect.fsetth (s := s.withChain ch) hsel
    rwa [State.setThreshold_withChain, State.setResult_withChain] at h
  | fread hsel =>
    have h := Effect.fread (s := s.withChain ch) hsel
    rwa [show (s.withChain ch).readFreq = s.readFreq from rfl, State.setResult_withChain] at h
  | digit hp hk => exact .digit (s := s.withChain ch) hp hk
  | @ttickExpired f s tm htm hexp => exact .ttickExpired (s := s.withChain ch) htm hexp
  | ttickRunning htm hexp => exact .ttickRunning (s := s.withChain ch) htm hexp
  | message hx | dbread hx | tcfg hx | tstart hx | tstop hx | trem hx | tactive hx | ftick hx =>
    all_goals
      constructor
      exact hx
  | colon | tcolon | rset | rsetn | rget | rison | rmask | renable | rdisable | fsample | status =>
    all_goals constructor

/-- The one form of REFRESH that executes. -/
def cleanRefresh : Instr := .refresh ⟨0, 0, 0, 0⟩

/-- A REFRESH whose reserved bits are 0 is that form (R67, R90). -/
theorem refresh_eq_clean {f : Fields} (hr : (Instr.refresh f).reservedClear = true) : .refresh f = cleanRefresh := by
  obtain ⟨a, b, c, t⟩ := f
  obtain ⟨rfl, rfl, rfl, rfl⟩ := (Instr.reservedClear_refresh _).1 hr
  rfl

/-- Unless a refresh takes place, what a command does to the block does not depend on the chain (R40). -/
theorem exec_withChain (ht : exec i s = .next t) (hi : s.fault = true ∨ i ≠ cleanRefresh) (ch : Chain) :
    exec i (s.withChain ch) = .next (t.withChain ch) := by
  rcases exec_cases ht with ⟨hf, rfl⟩ | ⟨hf, c, hc, rfl⟩ | ⟨hf, -, hr, h⟩
  · exact exec_of_halted (s := s.withChain ch) hf i
  · exact exec_of_firstFault (s := s.withChain ch) hf hc
  · have hne : i.opcode.toNat ≠ 0x30 := by
      cases i with
      | refresh f =>
        rcases hi with hhalted | hi
        · rw [hf] at hhalted
          cases hhalted
        · exact absurd (refresh_eq_clean (hr rfl)) hi
      | _ f => simp [Instr.opcode]
    exact (h.withChain hne ch).exec_eq hf hr

/-- A halted block stays halted under every command (R116). -/
theorem exec_stays_halted (ht : exec i s = .next t) (hf : s.fault = true) : t.fault = true := by
  rw [next_inj.1 (ht.symm.trans (exec_of_halted hf i))]
  exact hf

/-- Only RENABLE lowers OE, and not on a halted block (R30, R86, R116). -/
theorem exec_keeps_disabled (ht : exec i s = .next t) (hi : s.fault = true ∨ i.opcode ≠ 0x25)
    (hoe : s.oe = true) : t.oe = true := by
  rcases exec_cases ht with ⟨-, rfl⟩ | ⟨-, c, -, rfl⟩ | ⟨hf, -, -, h⟩
  · exact hoe
  · exact hoe
  · rcases hi with hhalted | hi
    · rw [hf] at hhalted
      cases hhalted
    · cases h with
      | renable => exact absurd rfl hi
      | rdisable => rfl
      | refresh => rw [State.setResult_oe, State.refreshAll_oe, hoe]
      | number | fsetth => simpa using hoe
      | _ => exact hoe

/-- Two machines with one history, whose chains may have held different contents: either a refresh has made them
equal, or the relays are disabled, and will be until a refresh has taken place or for good, on a halted block
(R116, R131). -/
def SameButChain (es : List Input) (s s' : State) : Prop :=
  s = s' ∨
    (∃ ch, s' = s.withChain ch) ∧ s.oe = true ∧ s.pins.clk = false ∧ s.pins.latch = true ∧
      (s.fault = true ∨ enablesAfterRefresh es = true)

/-- Of two such machines the same relays are energized: with OE high none is (R41). -/
theorem SameButChain.relayEnergized {es : List Input} {s s' : State} (h : SameButChain es s s') (n : Byte) :
    s.relayEnergized n = s'.relayEnergized n := by
  rcases h with rfl | ⟨⟨ch, rfl⟩, hoe, -⟩
  · rfl
  · simp [State.relayEnergized, State.oeN, State.withChain, hoe]

/-- A REFRESH that executes makes them equal: nothing of the chain before is left (R89, R90). -/
theorem exec_cleanRefresh_withChain (hf : s.fault = false) (hclk : s.pins.clk = false) (ch : Chain) :
    exec cleanRefresh (s.withChain ch) = exec cleanRefresh s := by
  have hexec (u : State) (hu : u.fault = false) : exec cleanRefresh u = .next (u.refreshAll.setResult 0) :=
    Effect.refresh.exec_eq hu fun _ => rfl
  rw [hexec s hf, hexec (s.withChain ch) hf, State.refreshAll_of_clk_low hclk,
    State.refreshAll_of_clk_low (s := s.withChain ch) hclk]
  rfl

/-- An event of a program runs one command, the executed REFRESH if it is one, or is illegal on the port (R66, R119).
Only the opcode of RENABLE makes it a RENABLE. -/
theorem deliver_ofProgram {e : Input} (he : e.ofProgram = true) :
    deliver e = illegalOnPort ∨
      ∃ i, deliver e = exec i ∧ (e.isRefresh = true → i = cleanRefresh) ∧
        (i.opcode = 0x25 → e.isRenable = true) := by
  cases e with
  | command w =>
    rcases presentCommand_cases w State.reset with ⟨hno, -⟩ | ⟨i, hC, hop, hfields, -⟩
    · exact .inl (funext (presentCommand_illegal hno))
    · have hdecode := decode_eq_term hop hfields
      refine .inr ⟨i, funext (presentCommand_term hdecode hC), fun hrefresh => ?_, fun hrenable => ?_⟩
      · have hw : w = encode cleanRefresh := Input.command.inj (beq_iff_eq.1 hrefresh)
        have hclean : decode (encode cleanRefresh) = .term cleanRefresh := decode_assembleWord rfl rfl
        rw [hw, hclean] at hdecode
        exact (Decoded.term.inj hdecode).symm
      · exact beq_iff_eq.2 (hop.symm.trans hrenable)
  | edge now => exact .inr ⟨.fsample (edgeFields now), rfl, nofun, nofun⟩
  | reset presented => cases he
  | powerCycle ch presented => cases he

/-- An event of a program keeps two such machines such machines (R131). -/
theorem SameButChain.deliver {e : Input} {es : List Input} {s s' t t' : State} (h : SameButChain (e :: es) s s')
    (he : e.ofProgram = true) (ht : deliver e s = .next t) (ht' : deliver e s' = .next t') :
    SameButChain es t t' := by
  rcases h with rfl | ⟨⟨ch, rfl⟩, hoe, hclk, hlatch, hsafe⟩
  · exact .inl (next_inj.1 (ht.symm.trans ht'))
  rcases deliver_ofProgram he with hport | ⟨i, hexec, hrefresh, hrenable⟩
  · rw [hport] at ht ht'
    cases hf : s.fault with
    | true =>
      rw [illegalOnPort_halted hf] at ht
      rw [illegalOnPort_halted (s := s.withChain ch) hf] at ht'
      rw [← next_inj.1 ht, ← next_inj.1 ht']
      exact .inr ⟨⟨ch, rfl⟩, hoe, hclk, hlatch, .inl hf⟩
    | false =>
      rw [illegalOnPort_running hf] at ht
      rw [illegalOnPort_running (s := s.withChain ch) hf] at ht'
      rw [← next_inj.1 ht, ← next_inj.1 ht']
      exact .inr ⟨⟨ch, rfl⟩, hoe, hclk, hlatch, .inl rfl⟩
  · rw [hexec] at ht ht'
    by_cases hi : s.fault = true ∨ i ≠ cleanRefresh
    · have hnext : (s.fault = true ∨ i.opcode ≠ 0x25) ∧
          (s.fault = true ∨ enablesAfterRefresh es = true) := by
        rcases hi with hf | hne
        · exact ⟨.inl hf, .inl hf⟩
        · rcases hsafe with hf | hsafe
          · exact ⟨.inl hf, .inl hf⟩
          · rw [enablesAfterRefresh, Bool.or_eq_true, Bool.and_eq_true, Bool.not_eq_true'] at hsafe
            obtain ⟨hno, hrest⟩ := hsafe.resolve_left fun hr => hne (hrefresh hr)
            exact ⟨.inr fun hop => Bool.eq_false_iff.1 hno (hrenable hop), .inr hrest⟩
      rw [exec_withChain ht hi ch] at ht'
      obtain ⟨hclk', hlatch'⟩ := exec_pins_idle ht hclk hlatch
      exact .inr ⟨⟨ch, (next_inj.1 ht').symm⟩, exec_keeps_disabled ht hnext.1 hoe, hclk', hlatch',
        hnext.2.imp_left (exec_stays_halted ht)⟩
    · push Not at hi
      obtain ⟨hf, rfl⟩ := hi
      rw [exec_cleanRefresh_withChain (Bool.eq_false_iff.2 hf) hclk] at ht'
      exact .inl (next_inj.1 (ht.symm.trans ht'))

/-- Along a program two such machines energize the same relays (R131). -/
theorem SameButChain.runEvents_take {es : List Input} {s s' : State} (h : SameButChain es s s')
    (hes : ∀ e ∈ es, e.ofProgram = true) (n : Nat) (r : Byte) :
    (runEvents (es.take n) s).relayEnergized r = (runEvents (es.take n) s').relayEnergized r := by
  induction es generalizing s s' n with
  | nil =>
    rw [List.take_nil]
    exact h.relayEnergized r
  | cons e es ih =>
    cases n with
    | zero => exact h.relayEnergized r
    | succ n =>
      rw [List.take_succ_cons, runEvents_cons, runEvents_cons]
      have hwait : SameButChain (e :: es) { s with inputs := [] } { s' with inputs := [] } := by
        rcases h with rfl | ⟨⟨ch, rfl⟩, hkeep⟩
        · exact .inl rfl
        · exact .inr ⟨⟨ch, rfl⟩, hkeep⟩
      exact ih (hwait.deliver (hes e List.mem_cons_self) (deliver_stepTo e s) (deliver_stepTo e s'))
        (fun e' he' => hes e' (List.mem_cons_of_mem e he')) n

/-- Settles O44: two power-ups differ in the chain only and start with the relays disabled. -/
theorem enableAfterRefreshHidesPowerOnLatch : Obligations.EnableAfterRefreshHidesPowerOnLatch :=
  fun _ _ ch' _ n r hes horder =>
    SameButChain.runEvents_take (.inr ⟨⟨ch', rfl⟩, rfl, rfl, rfl, .inr horder⟩) hes n r

/-! A command twice (R55). -/

/-- What a command leaves in RESULT of a halted block it leaves there again: RESULT is not in the status word. -/
theorem haltedResult_setResult (i : Instr) (s : State) :
    haltedResult i (s.setResult (haltedResult i s)) = haltedResult i s := by
  by_cases hi : i = .status ⟨0, 0, 0, 0⟩
  · rw [haltedResult, haltedResult, if_pos hi, if_pos hi]
    rfl
  · rw [haltedResult, haltedResult, if_neg hi, if_neg hi]
    split <;> rfl

/-- A command that has faulted leaves RESULT 0 again (R115, R116): STATUS in the form that executes does not fault. -/
theorem haltedResult_enterFault {c d : FaultCause} (hc : firstFault i s = some c) :
    haltedResult i (s.enterFault d) = 0 := by
  have hi : i ≠ .status ⟨0, 0, 0, 0⟩ := by
    rintro rfl
    cases hc
  rw [haltedResult, if_neg hi]
  split <;> rfl

/-- A command that leaves the block halted leaves it as it is when it is issued again (R55, R116). -/
theorem exec_again_of_halted (ht : exec i s = .next t) (hhalted : t.fault = true) : exec i t = .next t := by
  rcases exec_cases ht with ⟨-, rfl⟩ | ⟨-, c, hc, rfl⟩ | ⟨-, hrun, -⟩
  · rw [exec_of_halted hhalted, haltedResult_setResult]
    rfl
  · rw [exec_of_halted hhalted, haltedResult_enterFault hc]
    rfl
  · rw [hrun] at hhalted
    cases hhalted

/-- A masked update, bit by bit (R80). -/
theorem maskedUpdate_getLsbD (rb m v : Byte) {j : Nat} (hj : j < 8) :
    (maskedUpdate rb m v).getLsbD j = if m.getLsbD j then v.getLsbD j else rb.getLsbD j := by
  simp only [maskedUpdate, BitVec.getLsbD_or, BitVec.getLsbD_and, BitVec.getLsbD_not, hj, decide_true,
    Bool.true_and]
  cases m.getLsbD j <;> simp

/-- A masked update again changes nothing (R80). -/
theorem maskedUpdate_maskedUpdate (rb m v : Byte) : maskedUpdate (maskedUpdate rb m v) m v = maskedUpdate rb m v := by
  apply BitVec.eq_of_getLsbD_eq
  intro j hj
  simp only [maskedUpdate_getLsbD _ _ _ hj]
  split <;> rfl

/-- Writing the colon bit again changes nothing (R77). -/
theorem colonWord_colonWord (p : Params) (q : Fin 4) (lit : Bool) (w : DisplayWord) :
    colonWord p q lit (colonWord p q lit w) = colonWord p q lit w := by
  apply BitVec.eq_of_getLsbD_eq
  intro i hi
  cases lit with
  | true =>
    simp only [colonWord, if_true, BitVec.getLsbD_or, BitVec.getLsbD_and, BitVec.getLsbD_not, hi, decide_true,
      Bool.true_and]
    cases p.dpMask.getLsbD i <;> simp
  | false =>
    simp only [colonWord, Bool.false_eq_true, if_false, BitVec.getLsbD_or, Bool.or_assoc]
    cases p.dpMask.getLsbD i <;> cases (p.dst q).getLsbD i <;> simp

namespace State

/-- Writing words that DB holds changes nothing. -/
theorem withDb_eq_self {v : Vector DisplayWord 4} (h : ∀ q : Fin 4, v.get q = s.db.get q) :
    { s with db := v } = s := by
  rw [show v = s.db from Vector.ext fun q hq => h ⟨q, hq⟩]

/-- Writing a digit that is shown changes nothing (R73). -/
theorem writeDigit_eq_self {p : Fin 4} {k : Fin 17} (h : s.db.get p = s.cfg.ct k ||| s.cfg.dst p) :
    s.writeDigit p k = s := by
  refine withDb_eq_self fun q => (writeDigit_get p q k s).trans ?_
  split
  next hq => rw [hq, h]
  next => rfl

/-- So does writing a number that is shown (R75). -/
theorem writeNumber_eq_self {d v : Nat}
    (h : ∀ q : Fin 4, q.val < d → s.db.get q = s.cfg.ct (digitSymbol v d q) ||| s.cfg.dst q) :
    s.writeNumber d v = s := by
  rw [writeNumber_eq]
  refine withDb_eq_self fun q => (writeNumber_get d v q s).trans ?_
  split
  next hq => exact (h q hq).symm
  next => rfl

/-- So does writing a message that is shown (R76). -/
theorem writeMessage_eq_self {m : Fin 4}
    (h : ∀ q : Fin 4, s.db.get q = s.cfg.ct ((s.cfg.msg.get m).get q) ||| s.cfg.dst q) :
    s.writeMessage m = s :=
  withDb_eq_self fun q => (writeMessage_get m q s).trans (h q).symm

/-- So does writing the colon as it stands (R77). -/
theorem setColon_eq_self {lit : Bool} (hcolon : s.colon = lit)
    (h : ∀ q : Fin 4, q = 1 ∨ q = 2 → s.db.get q = colonWord s.cfg q lit (s.db.get q)) : s.setColon lit = s := by
  subst hcolon
  refine withDb_eq_self fun q => (setColon_get s.colon q s).trans ?_
  split
  next hq => exact (h q hq).symm
  next => rfl

/-- So does an update that RB has taken (R80). -/
theorem relayUpdate_eq_self {m v : Byte} (h : maskedUpdate s.rb m v = s.rb) : s.relayUpdate m v = s := by
  rw [relayUpdate, h]

/-- So does writing a timer that is in the pool (R32). -/
theorem setTimer_eq_self {a : Byte} {tm : Timer} (h : s.timers[a.toNat]? = some tm) : s.setTimer a tm = s := by
  obtain ⟨hlt, rfl⟩ := List.getElem?_eq_some_iff.1 h
  rw [setTimer, List.set_getElem_self]

/-- So do both together (R98, R100). -/
theorem setTimer_relayUpdate_eq_self {a m v : Byte} {tm : Timer} (htm : s.timers[a.toNat]? = some tm)
    (hrb : maskedUpdate s.rb m v = s.rb) : (s.setTimer a tm).relayUpdate m v = s := by
  rw [setTimer_eq_self htm, relayUpdate_eq_self hrb]

/-- A timer written in the pool is the one it then holds (R32). -/
theorem setTimer_getElem?_self {a : Byte} {old : Timer} (h : s.timers[a.toNat]? = some old) (tm : Timer) :
    (s.setTimer a tm).timers[a.toNat]? = some tm := by
  obtain ⟨hlt, -⟩ := List.getElem?_eq_some_iff.1 h
  rw [setTimer_get, if_pos rfl, if_pos hlt]

end State

/-- With ordered thresholds a second look at the same period leaves the state of the FSM (R106). -/
theorem hysteresis_hysteresis {lower upper stopped : Word32} (hlow : lower < upper) (hup : upper < stopped)
    (p : Word32) (st : FreqState) :
    hysteresis lower upper stopped p (hysteresis lower upper stopped p st) = hysteresis lower upper stopped p st := by
  rw [BitVec.lt_def] at hlow hup
  cases st with
  | stopped | low | high =>
    all_goals
      simp only [hysteresis, BitVec.lt_def]
      grind

/-- FTICK again at the same time leaves the state of the FSM (R55, R106). -/
theorem State.nextFreqState_again (hord : s.thresholdsOrdered = true) (now : Word32) :
    ({ s with fState := s.nextFreqState now } : State).nextFreqState now = s.nextFreqState now := by
  obtain ⟨hlow, hup⟩ := (thresholdsOrdered_iff s).1 hord
  simp only [State.nextFreqState]
  split
  · rfl
  · exact hysteresis_hysteresis hlow hup s.fSp s.fState

/-- A rule that ends in a state, ends in every state equal to it. -/
theorem Effect.of_eq {u : State} (h : Effect i s u) (hu : u = t) : Effect i s t := hu ▸ h

/-- Completing with the RESULT that stands changes nothing. -/
theorem State.setResult_of_eq {u : State} {r : Word32} (hu : u = s) (hr : s.result = r) : u.setResult r = s := by
  subst hu hr
  rfl

/-- A command issued again does what it has done: nothing more (R55). -/
theorem Effect.again (h : Effect i s t) (hi : i.opcode.toNat ∉ [0x14, 0x25, 0x26, 0x30, 0x50]) : Effect i t t := by
  cases h with
  | tcolon | renable | rdisable | refresh | fsample => simp [Instr.opcode] at hi
  | @digit f s p k hp hk =>
    refine (Effect.digit hp hk).of_eq (State.setResult_of_eq (State.writeDigit_eq_self ?_) rfl)
    exact (State.writeDigit_get p p k s).trans (if_pos rfl)
  | number hd =>
    refine (Effect.number hd).of_eq (State.setResult_of_eq (State.writeNumber_eq_self fun q hq => ?_) rfl)
    simp [State.writeNumber_get, hq]
  | message hm =>
    refine (Effect.message hm).of_eq (State.setResult_of_eq (State.writeMessage_eq_self fun q => ?_) rfl)
    simp [State.writeMessage_get]
  | colon =>
    refine Effect.colon.of_eq (State.setResult_of_eq (State.setColon_eq_self rfl fun q hq => ?_) rfl)
    simp [State.setColon_get, hq, colonWord_colonWord]
  | rset =>
    exact Effect.rset.of_eq (State.setResult_of_eq
      (State.relayUpdate_eq_self (maskedUpdate_maskedUpdate s.rb _ _)) rfl)
  | rsetn =>
    exact Effect.rsetn.of_eq (State.setResult_of_eq
      (State.relayUpdate_eq_self (maskedUpdate_maskedUpdate s.rb _ _)) rfl)
  | @tcfg f s tm htm =>
    have hset := State.setTimer_getElem?_self htm ⟨f.b, f.t, 0, false⟩
    exact Effect.of_eq (.tcfg hset) (State.setResult_of_eq (State.setTimer_eq_self hset) rfl)
  | @tstart f s tm htm =>
    have hset := State.setTimer_getElem?_self htm { tm with startTimestamp := f.t, active := true }
    exact Effect.of_eq (.tstart hset) (State.setResult_of_eq
      (State.setTimer_relayUpdate_eq_self hset (maskedUpdate_maskedUpdate s.rb _ _)) rfl)
  | @tstop f s tm htm =>
    have hset := State.setTimer_getElem?_self htm { tm with active := false }
    exact Effect.of_eq (.tstop hset) (State.setResult_of_eq
      (State.setTimer_relayUpdate_eq_self hset (maskedUpdate_maskedUpdate s.rb _ _)) rfl)
  | @ttickExpired f s tm htm hexp =>
    -- the timer is Idle now, so TTICK finds it not expired
    have hset := State.setTimer_getElem?_self htm { tm with active := false }
    exact Effect.of_eq (.ttickRunning hset rfl) rfl
  | @ftick f s hord =>
    have hagain : (({ s with fState := s.nextFreqState f.t } : State).setResult
        ((s.nextFreqState f.t).code.setWidth 32)).nextFreqState f.t = s.nextFreqState f.t :=
      State.nextFreqState_again hord f.t
    refine Effect.of_eq (.ftick hord) ?_
    rw [hagain]
    rfl
  | @fsetth f s sel hsel => cases sel <;> exact .fsetth hsel
  | @fread f s sel hsel => exact .fread (s := s.setResult (s.readFreq sel)) hsel
  | ttickRunning htm hexp => exact .ttickRunning (s := s.setResult _) htm hexp
  | dbread hx | trem hx | tactive hx =>
    all_goals
      constructor
      exact hx
  | rget | rison | rmask | status =>
    all_goals constructor

/-- Every command but these five, issued again, leaves what it left (R55). -/
theorem exec_again (hi : i.opcode.toNat ∉ [0x14, 0x25, 0x26, 0x30, 0x50]) (ht : exec i s = .next t) :
    exec i t = .next t := by
  by_cases hrun : t.fault = true
  · exact exec_again_of_halted ht hrun
  · rw [Bool.not_eq_true] at hrun
    rcases exec_cases ht with ⟨hf, rfl⟩ | ⟨-, c, -, rfl⟩ | ⟨-, -, hr, h⟩
    · rw [State.setResult_fault, hf] at hrun
      cases hrun
    · cases hrun
    · exact (h.again hi).exec_eq hrun hr

/-- The commands that drive pins leave on a second issue all but the trace: OE stands at its level, and a refresh
sends the same frames into a chain of which nothing is left (R55, R90). -/
theorem exec_pins_again {u : State} (hi : i.opcode.toNat ∈ [0x25, 0x26, 0x30]) (hclk : s.pins.clk = false)
    (ht : exec i s = .next t) (hu : exec i t = .next u) : u = { t with trace := u.trace } := by
  by_cases hrun : t.fault = true
  · rw [← next_inj.1 ((exec_again_of_halted ht hrun).symm.trans hu)]
  · rw [Bool.not_eq_true] at hrun
    rcases exec_cases ht with ⟨hf, rfl⟩ | ⟨-, c, -, rfl⟩ | ⟨-, -, hr, h⟩
    · rw [State.setResult_fault, hf] at hrun
      cases hrun
    · cases hrun
    · cases h with
      | renable =>
        rw [next_inj.1 (hu.symm.trans (Effect.renable.exec_eq hrun hr))]
        rfl
      | rdisable =>
        rw [next_inj.1 (hu.symm.trans (Effect.rdisable.exec_eq hrun hr))]
        rfl
      | refresh =>
        rw [next_inj.1 (hu.symm.trans (Effect.refresh.exec_eq hrun hr)), State.refreshAll_of_clk_low hclk,
          State.refreshAll_of_clk_low rfl]
        rfl
      | _ => simp [Instr.opcode] at hi

/-- Settles O23: a second issue finds the block halted or its rule's work done; TCOLON follows COLON, and the second
of two edges at one time has delta 0. -/
theorem commandsAreIdempotent : Obligations.CommandsAreIdempotent := by
  refine ⟨fun i s t hi ht => exec_again hi ht, fun i s t u hi hclk ht hu => exec_pins_again hi hclk ht hu,
    fun f s t u hf hr ht hu => ?_, fun now s t u hf ht hu => ?_⟩
  · have htoggle (v : State) (hv : v.fault = false) :
        exec (.tcolon f) v = .next ((v.setColon (!v.colon)).setResult (flagResult (!v.colon))) :=
      Effect.tcolon.exec_eq hv fun _ => hr
    rw [htoggle s hf] at ht
    obtain rfl := next_inj.1 ht
    rw [htoggle _ (by exact hf)] at hu
    obtain rfl := next_inj.1 hu
    exact ⟨rfl, Bool.not_not _⟩
  · have hedge (v : State) (hv : v.fault = false) : exec (.fsample ⟨0, 0, 0, now⟩) v = .next (v.sample now) :=
      Effect.fsample.exec_eq hv nofun
    rw [hedge s hf] at ht
    obtain rfl := next_inj.1 ht
    rw [hedge _ (by exact hf)] at hu
    obtain rfl := next_inj.1 hu
    have hdelta : ((s.sample now).sample now).fAcc = (s.sample now).fAcc - (s.sample now).fSp := by
      rw [State.sample_fAcc (s.sample now), State.sample_fLast, elapsed, BitVec.sub_self, BitVec.add_zero]
    rw [hdelta]
    exact ⟨rfl, sub_eq_self⟩

end Sys2Proof.Machine
end

section
/-! The averager (44_freq.md R104, R105): an edge at a constant interval as a map of numbers, its fixed band, and the
distance from the band, which every edge shortens. -/

namespace Sys2Proof.Machine

section Numbers

variable {k P A : Nat}

/-- The accumulator after an edge at interval `P`, as numbers; `k` is the width of the band, 2^SMOOTH_SHIFT (R104). -/
def smoothed (k P A : Nat) : Nat := A + P - A / k

/-- How far the accumulator is from the band from `P * k` to `P * k + k - 1` (R105). -/
def bandGap (k P A : Nat) : Nat := (P * k - A) + (A + 1 - (P * k + k))

/-- Below the band an edge raises the accumulator, and not past the band's end (R105). -/
theorem smoothed_of_below (hk : 0 < k) (h : A < P * k) :
    A < smoothed k P A ∧ smoothed k P A < P * k + k := by
  have hquot : A / k < P := (Nat.div_lt_iff_lt_mul hk).2 h
  obtain ⟨d, hd⟩ := Nat.exists_eq_add_of_lt hquot
  have hnext : A < k * (A / k) + k := Nat.lt_mul_div_succ A hk
  have hsplit : P * k = k * (A / k) + (d + 1) * k := by rw [hd]; ring
  have hstep : d + 1 ≤ (d + 1) * k := Nat.le_mul_of_pos_right _ hk
  unfold smoothed
  omega

/-- Above the band an edge lowers it, and not past the band's start (R105). -/
theorem smoothed_of_above (hk : 0 < k) (h : P * k + k ≤ A) :
    P * k ≤ smoothed k P A ∧ smoothed k P A < A := by
  have hquot : P + 1 ≤ A / k := (Nat.le_div_iff_mul_le hk).2 (by rwa [Nat.succ_mul])
  obtain ⟨d, hd⟩ := Nat.exists_eq_add_of_le hquot
  have hbelow : k * (A / k) ≤ A := Nat.mul_div_le A k
  have hle : A / k ≤ A := Nat.div_le_self A k
  have hsplit : k * (A / k) = P * k + (d + 1) * k := by rw [hd]; ring
  have hstep : d + 1 ≤ (d + 1) * k := Nat.le_mul_of_pos_right _ hk
  unfold smoothed
  omega

/-- In the band the accumulator means `P` (R105). -/
theorem div_of_inBand (h : P * k ≤ A) (h' : A < P * k + k) : A / k = P :=
  Nat.div_eq_of_lt_le h (by rwa [Nat.succ_mul])

/-- In the band an edge leaves it as it is (R105). -/
theorem smoothed_of_inBand (h : P * k ≤ A) (h' : A < P * k + k) : smoothed k P A = A := by
  rw [smoothed, div_of_inBand h h', Nat.add_sub_cancel]

/-- The gap is 0 exactly in the band. -/
theorem bandGap_eq_zero_iff : bandGap k P A = 0 ↔ P * k ≤ A ∧ A < P * k + k := by
  unfold bandGap
  omega

/-- Every edge shortens the distance from the band (R105). -/
theorem bandGap_smoothed_le (hk : 0 < k) : bandGap k P (smoothed k P A) ≤ bandGap k P A - 1 := by
  unfold bandGap
  rcases Nat.lt_or_ge A (P * k) with hbelow | hstart
  · have h := smoothed_of_below hk hbelow
    omega
  · rcases Nat.lt_or_ge A (P * k + k) with hend | habove
    · rw [smoothed_of_inBand hstart hend]
      omega
    · have h := smoothed_of_above hk habove
      omega

/-- When the band fits below a bound, an edge keeps the accumulator below it. -/
theorem smoothed_lt {bound : Nat} (hk : 0 < k) (hband : P * k + k ≤ bound) (hA : A < bound) :
    smoothed k P A < bound := by
  rcases Nat.lt_or_ge A (P * k) with hbelow | hstart
  · have h := smoothed_of_below hk hbelow
    omega
  · rcases Nat.lt_or_ge A (P * k + k) with hend | habove
    · rwa [smoothed_of_inBand hstart hend]
    · have h := smoothed_of_above hk habove
      omega

end Numbers

/-- The averager's law (R104): the smoothed period is the accumulator shifted. -/
def State.Smoothed (s : State) : Prop := s.fSp = s.fAcc >>> s.cfg.smoothShift.val

/-- The width of the band (R105). -/
def State.bandWidth (s : State) : Nat := 2 ^ s.cfg.smoothShift.val

section

variable {s : State} {P : Word32}

theorem State.bandWidth_pos (s : State) : 0 < s.bandWidth := Nat.two_pow_pos _

/-- Under the law the smoothed period is the accumulator divided by the band's width (R104). -/
theorem State.Smoothed.toNat (h : s.Smoothed) : s.fSp.toNat = s.fAcc.toNat / s.bandWidth := by
  rw [h, BitVec.toNat_ushiftRight, Nat.shiftRight_eq_div_pow, State.bandWidth]

/-- The law holds after every edge. -/
theorem State.smoothed_sample (s : State) (now : Word32) : (s.sample now).Smoothed := rfl

/-- An edge at interval `P` adds `P` to the accumulator and takes the smoothed period away (R104). -/
theorem State.sample_fAcc_interval (s : State) (P : Word32) :
    (s.sample (s.fLast + P)).fAcc = s.fAcc + P - s.fSp := by
  rw [State.sample_fAcc, elapsed, BitVec.add_comm s.fLast, BitVec.add_sub_cancel]

/-- When the band fits in 32 bits, an edge at interval `P` is the map of numbers: nothing wraps (R105). -/
theorem State.Smoothed.sample_toNat (h : s.Smoothed) (hband : (P.toNat + 1) * s.bandWidth ≤ 2 ^ 32) :
    (s.sample (s.fLast + P)).fAcc.toNat = smoothed s.bandWidth P.toNat s.fAcc.toNat := by
  have hlt := smoothed_lt s.bandWidth_pos (by rwa [Nat.succ_mul] at hband) s.fAcc.isLt
  have hle : s.fAcc.toNat / s.bandWidth ≤ s.fAcc.toNat := Nat.div_le_self _ _
  rw [State.sample_fAcc_interval, BitVec.toNat_sub, BitVec.toNat_add, h.toNat]
  unfold smoothed at hlt ⊢
  omega

/-- The law and the parameters along constant edges. -/
theorem State.Smoothed.sampleEvery (h : s.Smoothed) (P : Word32) (n : Nat) :
    (Machine.sampleEvery P n s).Smoothed ∧ (Machine.sampleEvery P n s).cfg = s.cfg := by
  induction n generalizing s with
  | zero => exact ⟨h, rfl⟩
  | succ n ih => exact ih (s.smoothed_sample _)

/-- After `n` edges at interval `P` the gap has shrunk by `n`, if it was so large (R105). -/
theorem State.Smoothed.bandGap_sampleEvery (h : s.Smoothed) (hband : (P.toNat + 1) * s.bandWidth ≤ 2 ^ 32)
    (n : Nat) :
    bandGap s.bandWidth P.toNat (Machine.sampleEvery P n s).fAcc.toNat ≤
      bandGap s.bandWidth P.toNat s.fAcc.toNat - n := by
  induction n generalizing s with
  | zero => exact Nat.le_refl _
  | succ n ih =>
    have hrest := ih (s.smoothed_sample (s.fLast + P)) hband
    have hfirst := bandGap_smoothed_le (k := s.bandWidth) (P := P.toNat) (A := s.fAcc.toNat) s.bandWidth_pos
    rw [← h.sample_toNat hband] at hfirst
    change bandGap s.bandWidth P.toNat
      (Machine.sampleEvery P n (s.sample (s.fLast + P))).fAcc.toNat ≤ _ at hrest
    change bandGap s.bandWidth P.toNat
      (Machine.sampleEvery P n (s.sample (s.fLast + P))).fAcc.toNat ≤ _
    have hwidth : (s.sample (s.fLast + P)).bandWidth = s.bandWidth := rfl
    rw [hwidth] at hrest
    omega

/-- No accumulator is further than 2^32 from a band that fits in 32 bits. -/
theorem State.bandGap_le (s : State) (hband : (P.toNat + 1) * s.bandWidth ≤ 2 ^ 32) :
    bandGap s.bandWidth P.toNat s.fAcc.toNat ≤ 2 ^ 32 := by
  have hlt := s.fAcc.isLt
  rw [Nat.succ_mul] at hband
  unfold bandGap
  omega

/-- With no gap left the smoothed period is `P` (R105). -/
theorem State.Smoothed.eq_of_bandGap (h : s.Smoothed) (hgap : bandGap s.bandWidth P.toNat s.fAcc.toNat = 0) :
    s.fSp = P := by
  obtain ⟨hstart, hend⟩ := bandGap_eq_zero_iff.1 hgap
  exact BitVec.eq_of_toNat_eq (h.toNat.trans (div_of_inBand hstart hend))

/-- Settles O52: an accumulator in the band has no gap and stays; an edge is the map of numbers; and 2^32 edges are
enough for every gap. -/
theorem smoothingConverges : Obligations.SmoothingConverges := by
  intro s P h hband
  have hsmooth : s.Smoothed := h
  change (P.toNat + 1) * s.bandWidth ≤ 2 ^ 32 at hband
  have hstep := hsmooth.sample_toNat hband
  refine ⟨fun hstart hend => ?_, ?_, 2 ^ 32, Nat.le_refl _, fun m hm => ?_⟩
  · change P.toNat * s.bandWidth ≤ s.fAcc.toNat at hstart
    change s.fAcc.toNat ≤ P.toNat * s.bandWidth + s.bandWidth - 1 at hend
    have hpos := s.bandWidth_pos
    have hend' : s.fAcc.toNat < P.toNat * s.bandWidth + s.bandWidth := by omega
    exact ⟨hsmooth.eq_of_bandGap (bandGap_eq_zero_iff.2 ⟨hstart, hend'⟩),
      BitVec.eq_of_toNat_eq (hstep.trans (smoothed_of_inBand hstart hend'))⟩
  · have hle : s.fAcc.toNat / s.bandWidth ≤ s.fAcc.toNat := Nat.div_le_self _ _
    have hquot : (s.fAcc.toNat : Int) / 2 ^ s.cfg.smoothShift.val = (s.fAcc.toNat / s.bandWidth : Nat) := by
      rw [State.bandWidth]
      norm_cast
    rw [hstep, hquot, smoothed]
    omega
  · obtain ⟨hlaw, hcfg⟩ := hsmooth.sampleEvery P m
    have hgap := hsmooth.bandGap_sampleEvery hband m
    have hfar := s.bandGap_le hband
    have hwidth : (sampleEvery P m s).bandWidth = s.bandWidth := by rw [State.bandWidth, hcfg, State.bandWidth]
    refine hlaw.eq_of_bandGap ?_
    rw [hwidth]
    omega

/-- Settles O51: the rule of FSAMPLE; under the law the smoothed period is at most the accumulator. -/
theorem fsampleUpdatesTheAverage : Obligations.FsampleUpdatesTheAverage := by
  intro s f hf
  refine ⟨s.sample f.t, Effect.fsample.exec_eq hf nofun, rfl, fun h => ?_⟩
  have hle : s.fSp.toNat ≤ s.fAcc.toNat := by
    rw [State.Smoothed.toNat h]
    exact Nat.div_le_self _ _
  refine ⟨hle, fun hlt => ?_⟩
  change (s.fAcc + (f.t - s.fLast) - s.fSp).toNat = _
  rw [BitVec.toNat_sub, BitVec.toNat_add]
  omega

end

end Sys2Proof.Machine
end

section
/-! The frequency switch's state machine (44_freq.md R106 to R110): what FTICK answers by the comparisons of the
smoothed period, and the threshold commands. -/

namespace Sys2Proof.Machine

variable {s : State}

section Hysteresis

variable {lower upper stopped p : Word32}

/-- From STOPPED (R106). -/
theorem hysteresis_stopped :
    hysteresis lower upper stopped p .stopped =
      if p.toNat < stopped.toNat then (if upper.toNat < p.toNat then .low else .high) else .stopped := rfl

/-- From LOW (R106). -/
theorem hysteresis_low :
    hysteresis lower upper stopped p .low =
      if p.toNat < lower.toNat then .high else if stopped.toNat < p.toNat then .stopped else .low := rfl

/-- From HIGH, the stopped threshold first (R106, 90_conflicts.md C10). -/
theorem hysteresis_high :
    hysteresis lower upper stopped p .high =
      if stopped.toNat < p.toNat then .stopped else if upper.toNat < p.toNat then .low else .high := rfl

end Hysteresis

/-- Silence, more than TH_STOPPED since the last edge, forces STOPPED (R106). -/
theorem nextFreqState_of_silence {now : Word32} (h : s.thStopped.toNat < (now - s.fLast).toNat) :
    s.nextFreqState now = .stopped := if_pos h

/-- Else the hysteresis decides (R106). -/
theorem nextFreqState_of_signal {now : Word32} (h : (now - s.fLast).toNat ≤ s.thStopped.toNat) :
    s.nextFreqState now = hysteresis s.thLower s.thUpper s.thStopped s.fSp s.fState :=
  if_neg (Nat.not_lt.2 h)

/-- With ordered thresholds FTICK completes with the next state of the FSM, and answers it (R106). -/
theorem exec_ftick {f : Fields} (hf : s.fault = false) (hr : (Instr.ftick f).reservedClear = true)
    (hord : s.thresholdsOrdered = true) :
    exec (.ftick f) s =
      .next { s with fState := s.nextFreqState f.t, result := (s.nextFreqState f.t).code.setWidth 32 } :=
  (Effect.ftick hord).exec_eq hf fun _ => hr

/-- Settles O53: silence or the row of the state before. -/
theorem ftickTransitions : Obligations.FtickTransitions := by
  intro s f hf ha hb hc hlow hup
  have hr := (Instr.reservedClear_ftick f).2 ⟨ha, hb, hc⟩
  refine ⟨_, exec_ftick hf hr ((thresholdsOrdered_iff s).2 ⟨hlow, hup⟩), rfl, nextFreqState_of_silence,
    fun hsignal => ?_⟩
  rw [nextFreqState_of_signal hsignal]
  refine ⟨fun hst => ?_, fun hst => ?_, fun hst => ?_⟩
  · rw [hst, hysteresis_stopped]
    grind
  · rw [hst, hysteresis_low]
    grind
  · rw [hst, hysteresis_high]
    grind

/-- A period between the lower and the upper threshold moves neither LOW nor HIGH, and STOPPED to HIGH (R107). -/
theorem hysteresis_of_deadBand {lower upper stopped p : Word32} (hlow : lower.toNat ≤ p.toNat)
    (hup : p.toNat ≤ upper.toNat) (hord : upper.toNat < stopped.toNat) (st : FreqState) :
    hysteresis lower upper stopped p st = if st = .stopped then .high else st := by
  cases st with
  | stopped => rw [hysteresis_stopped, if_pos (by omega), if_neg (by omega), if_pos rfl]
  | low => rw [hysteresis_low, if_neg (by omega), if_neg (by omega), if_neg (by decide)]
  | high => rw [hysteresis_high, if_neg (by omega), if_neg (by omega), if_neg (by decide)]

/-- A period that leads to each state of the FSM, whatever the state before, under the thresholds of INSTANCE_T
(R107): beyond TH_STOPPED, between TH_UPPER and TH_STOPPED, and below TH_LOWER. -/
def periodTo : FreqState → Word32
  | .stopped => 600000
  | .low => 30000
  | .high => 5000

/-- One FTICK leads from each state to each (R107). -/
theorem exists_ftick_between (before after : FreqState) :
    ∃ (u v : State) (g : Fields), u.fault = false ∧ u.thresholdsOrdered = true ∧ u.fState = before ∧
      exec (.ftick g) u = .next v ∧ v.fault = false ∧ v.fState = after := by
  have hreach : hysteresis 10000 20000 500000 (periodTo after) before = after := by
    cases after <;> cases before <;> rfl
  refine ⟨{ State.reset with fState := before, fSp := periodTo after }, _, ⟨0, 0, 0, 0⟩, rfl, rfl, rfl,
    exec_ftick rfl rfl rfl, rfl, ?_⟩
  have hsignal : ((0 : Word32) - 0).toNat ≤ (500000 : Word32).toNat := by decide
  exact (nextFreqState_of_signal (by exact hsignal)).trans hreach

/-- Settles O54: the rows of the hysteresis, and nine FTICKs. -/
theorem hysteresisLaws : Obligations.HysteresisLaws := by
  intro s t f hf hord ht hrun hsignal
  obtain ⟨hr, -⟩ := effect_of_exec ht hf hrun
  rw [exec_ftick hf (hr rfl) hord] at ht
  obtain rfl := next_inj.1 ht
  obtain ⟨hlow, hup⟩ := (thresholdsOrdered_iff s).1 hord
  rw [BitVec.lt_def] at hlow hup
  simp only [nextFreqState_of_signal hsignal]
  refine ⟨fun hst => ?_, fun hst => ?_, fun hst => ?_, fun hge hle => ?_, exists_ftick_between⟩
  · rw [hst, hysteresis_low]
    grind
  · rw [hst, hysteresis_high]
    grind
  · rw [hst, hysteresis_low]
    grind
  · rw [hysteresis_of_deadBand hge hle hup]
    exact ⟨fun hst => if_neg hst, fun hst => if_pos hst⟩

/-- Settles O55: after a reset the state is STOPPED, the period 0 and the last edge at 0. -/
theorem startUpTransient : Obligations.StartUpTransient := by
  intro p ch now hlow hup
  have hord : (State.powerUp p ch).thresholdsOrdered = true := (thresholdsOrdered_iff _).2 ⟨hlow, hup⟩
  have hnow : (now - (State.powerUp p ch).fLast).toNat = now.toNat := congrArg BitVec.toNat (BitVec.sub_zero now)
  refine ⟨_, exec_ftick rfl ((Instr.reservedClear_ftick _).2 ⟨rfl, rfl, rfl⟩) hord, fun hle => ?_, fun hlt => ?_⟩
  · have hnext : (State.powerUp p ch).nextFreqState now = .high := by
      rw [nextFreqState_of_signal (hnow.trans_le hle)]
      change hysteresis p.thLowerInit p.thUpperInit p.thStoppedInit 0 .stopped = .high
      rw [hysteresis_stopped, show (0 : Word32).toNat = 0 from rfl, if_pos (by omega), if_neg (by omega)]
    simp only [hnext]
    decide
  · have hnext : (State.powerUp p ch).nextFreqState now = .stopped :=
      nextFreqState_of_silence (hlt.trans_eq hnow.symm)
    simp only [hnext]
    decide

/-- The selector of FSETTH, read (R109). -/
theorem thresholdSel?_eq (a : Byte) :
    (a.toNat = 0 → thresholdSel? a = some .lower) ∧ (a.toNat = 1 → thresholdSel? a = some .upper) ∧
      (a.toNat = 2 → thresholdSel? a = some .stopped) := by
  refine ⟨fun h => ?_, fun h => ?_, fun h => ?_⟩ <;> simp [thresholdSel?, h]

/-- The selector of FREAD, read (R110). -/
theorem readSel?_eq (a : Byte) :
    (a.toNat = 0 → readSel? a = some .lower) ∧ (a.toNat = 1 → readSel? a = some .upper) ∧
      (a.toNat = 2 → readSel? a = some .stopped) ∧ (a.toNat = 3 → readSel? a = some .sp) ∧
      (a.toNat = 4 → readSel? a = some .acc) ∧ (a.toNat = 5 → readSel? a = some .last) ∧
      (a.toNat = 6 → readSel? a = some .state) := by
  refine ⟨fun h => ?_, fun h => ?_, fun h => ?_, fun h => ?_, fun h => ?_, fun h => ?_, fun h => ?_⟩ <;>
    simp [readSel?, h]

/-- Settles O56: each selector by its register. -/
theorem thresholdWriteAndReadback : Obligations.ThresholdWriteAndReadback := by
  intro s f hf hb hc
  have hwrite {sel : ThresholdSel} (hsel : thresholdSel? f.a = some sel) :
      exec (.fsetth f) s = .next ((s.setThreshold sel f.t).setResult 0) :=
    (Effect.fsetth hsel).exec_eq hf fun _ => (Instr.reservedClear_fsetth f).2 ⟨hb, hc⟩
  obtain ⟨hlower, hupper, hstopped⟩ := thresholdSel?_eq f.a
  refine ⟨fun h => hwrite (hlower h), fun h => hwrite (hupper h), fun h => hwrite (hstopped h), fun ht => ?_⟩
  have hread {sel : ReadSel} (hsel : readSel? f.a = some sel) :
      exec (.fread f) s = .next (s.setResult (s.readFreq sel)) :=
    (Effect.fread hsel).exec_eq hf fun _ => (Instr.reservedClear_fread f).2 ⟨hb, hc, ht⟩
  obtain ⟨hlower, hupper, hstopped, hsp, hacc, hlast, hstate⟩ := readSel?_eq f.a
  exact ⟨fun h => hread (hlower h), fun h => hread (hupper h), fun h => hread (hstopped h),
    fun h => hread (hsp h), fun h => hread (hacc h), fun h => hread (hlast h), fun h => hread (hstate h)⟩

end Sys2Proof.Machine
end

section
/-! The display family (40_display.md R73 to R79): each command completes as its rule says, and what the colon
commands and the digit writes do to the colon bit. -/

namespace Sys2Proof.Machine

variable {i : Instr} {s t : State}

/-- Settles O27: the digit write at its position. -/
theorem digitWritesItsWord : Obligations.DigitWritesItsWord := fun _ f _ _ hf hp hk hc ht =>
  (Effect.digit (position?_some.2 hp) (symbol?_some.2 hk)).exec_eq hf
    fun _ => (Instr.reservedClear_digit f).2 ⟨hc, ht⟩

/-- The value operand of NUMBER, when T holds 16 bits (R62, R75). -/
theorem valueOperand_toNat {t : Word32} (ht : t.toNat < 65536) : (valueOperand t).toNat = t.toNat := by
  rw [valueOperand, BitVec.toNat_setWidth]
  exact Nat.mod_eq_of_lt ht

/-- NUMBER completes with its writes (R75). -/
theorem exec_number {f : Fields} (hf : s.fault = false) (hlo : 1 ≤ f.a.toNat) (hhi : f.a.toNat ≤ 4)
    (hb : f.b = 0) (hc : f.c = 0) (ht : f.t.toNat < 65536) :
    exec (.number f) s = .next ((s.writeNumber f.a.toNat f.t.toNat).setResult 0) := by
  rw [← valueOperand_toNat ht]
  exact (Effect.number (digitCount?_some.2 ⟨rfl, hlo, hhi⟩)).exec_eq hf
    fun _ => (Instr.reservedClear_number f).2 ⟨hb, hc, ht⟩

/-- Settles O28: a position below the count shows its digit, the others keep their words. -/
theorem numberShowsItsDigits : Obligations.NumberShowsItsDigits := by
  intro s f hf hlo hhi hb hc ht
  refine ⟨_, exec_number hf hlo hhi hb hc ht, congrArg (State.setResult 0) (s.writeNumber_eq _ _),
    fun p k hp hk => ?_, fun p hp => ?_⟩
  · have hsymbol : digitSymbol f.t.toNat f.a.toNat p = k := Fin.ext hk.symm
    rw [State.setResult_db, State.writeNumber_get, if_pos hp, hsymbol]
  · rw [State.setResult_db, State.writeNumber_get, if_neg (Nat.not_lt.2 hp)]

/-- The digit at a position below the count is one of the `d` low ones (R75). -/
theorem digitSymbol_mod {v d : Nat} {p : Fin 4} (hp : p.val < d) :
    digitSymbol (v % 10 ^ d) d p = digitSymbol v d p := by
  have hpow : 10 ^ d = 10 ^ (d - 1 - p.val) * 10 ^ (p.val + 1) := by
    rw [← pow_add]
    congr 1
    omega
  have hten : 10 ∣ 10 ^ (p.val + 1) := Dvd.intro_left _ (pow_succ 10 p.val).symm
  apply Fin.ext
  change v % 10 ^ d / 10 ^ (d - 1 - p.val) % 10 = v / 10 ^ (d - 1 - p.val) % 10
  rw [hpow, Nat.mod_mul_right_div_self, Nat.mod_mod_of_dvd _ hten]

/-- So NUMBER's writes do not depend on the digits above (R75). -/
theorem State.writeNumber_mod (d v : Nat) (s : State) : s.writeNumber d (v % 10 ^ d) = s.writeNumber d v := by
  have hget (q : Fin 4) : (s.writeNumber d (v % 10 ^ d)).db.get q = (s.writeNumber d v).db.get q := by
    rw [writeNumber_get, writeNumber_get]
    split
    next hq => rw [digitSymbol_mod hq]
    next => rfl
  have hdb : (s.writeNumber d (v % 10 ^ d)).db = (s.writeNumber d v).db :=
    Vector.ext fun q hq => hget ⟨q, hq⟩
  rw [s.writeNumber_eq, hdb, ← s.writeNumber_eq]

/-- Settles O29: a halted block ignores both commands; else both complete, with the same writes. -/
theorem numberTruncatesToLowDigits : Obligations.NumberTruncatesToLowDigits := by
  intro s d v hlo hhi hv
  cases hf : s.fault with
  | true =>
    rw [exec_of_halted hf, exec_of_halted hf]
    rfl
  | false =>
    have hd : (BitVec.ofNat 8 d).toNat = d := Nat.mod_eq_of_lt (by omega)
    have hvalue {n : Nat} (hn : n < 65536) : (BitVec.ofNat 32 n).toNat = n := Nat.mod_eq_of_lt (by omega)
    have hcompletes {n : Nat} (hn : n < 65536) :
        exec (.number ⟨BitVec.ofNat 8 d, 0, 0, BitVec.ofNat 32 n⟩) s =
          .next ((s.writeNumber d n).setResult 0) := by
      have h := exec_number (f := ⟨BitVec.ofNat 8 d, 0, 0, BitVec.ofNat 32 n⟩) hf (by rwa [hd]) (by rwa [hd]) rfl
        rfl (by rwa [hvalue hn])
      rwa [hd, hvalue hn] at h
    rw [hcompletes hv, hcompletes ((Nat.mod_le _ _).trans_lt hv), State.writeNumber_mod]

/-- Settles O30: the writes of the message's row. -/
theorem messageWritesItsRow : Obligations.MessageWritesItsRow := by
  intro s f m hf hm hb hc ht
  exact ⟨_, (Effect.message (message?_some.2 hm)).exec_eq hf
      fun _ => (Instr.reservedClear_message f).2 ⟨hb, hc, ht⟩, rfl, fun p => s.writeMessage_get m p⟩

/-- Settles O34: the word of its position. -/
theorem dbreadReturnsTheWord : Obligations.DbreadReturnsTheWord := fun _ f _ hf hp hb hc ht =>
  (Effect.dbread (position?_some.2 hp)).exec_eq hf fun _ => (Instr.reservedClear_dbread f).2 ⟨hb, hc, ht⟩

/-! The colon (R77, R78). -/

/-- The colon leaves in DB what its rule says, whatever RESULT is (R77). -/
theorem colonWritten_setColon (s : State) (en : Bool) (r : Word32) :
    colonWritten s ((s.setColon en).setResult r) en := by
  refine ⟨s.setColon_get en 0, s.setColon_get en 3, fun p hp => ?_⟩
  rw [State.setResult_db, State.setColon_get, if_pos hp, colonWord]

/-- A boolean operand is its bit (R62). -/
theorem boolOperand_of_bool (en : Bool) : boolOperand (if en then 1 else 0) = en := by
  cases en <;> rfl

/-- Settles O31: the colon of the operand, and the opposite of the flag. -/
theorem colonCommandsComplete : Obligations.ColonCommandsComplete := by
  intro s f hf hb hc ht
  refine ⟨fun en ha => ?_, fun ha => ?_⟩
  · have hr : (Instr.colon f).reservedClear = true :=
      (Instr.reservedClear_colon f).2 ⟨by cases en <;> simp [ha], hb, hc, ht⟩
    have h := Effect.colon.exec_eq hf fun _ => hr
    rw [ha, boolOperand_of_bool] at h
    exact ⟨_, h, rfl, colonWritten_setColon s en 0⟩
  · have hr : (Instr.tcolon f).reservedClear = true := (Instr.reservedClear_tcolon f).2 ⟨ha, hb, hc, ht⟩
    have hresult : flagResult (!s.colon) = if s.colon then 0 else 1 := by cases s.colon <;> rfl
    have h := Effect.tcolon.exec_eq hf fun _ => hr
    rw [hresult] at h
    exact ⟨_, h, rfl, colonWritten_setColon s (!s.colon) _⟩

/-- In a word that has its select bit the colon command changes the colon bit at most (R77). -/
theorem colonWord_xor_and {p : Params} {q : Fin 4} {w : DisplayWord} (hw : p.WordOk q w) (lit : Bool) :
    (colonWord p q lit w ^^^ w) &&& ~~~p.dpMask = 0 := by
  obtain ⟨hsel, -⟩ := hw
  apply BitVec.eq_of_getLsbD_eq
  intro j hj
  have hbit := congrArg (·.getLsbD j) hsel
  simp only [BitVec.getLsbD_and] at hbit
  cases lit <;> cases hdp : p.dpMask.getLsbD j <;> cases hwj : w.getLsbD j <;> simp_all [colonWord]

/-- And leaves it as its operand says: 0 lit, 1 dark (R77). -/
theorem colonWord_getLsbD_dp {p : Params} (h : p.Legal) (q : Fin 4) (lit : Bool) (w : DisplayWord) :
    (colonWord p q lit w).getLsbD (p.segBit.bit .dp).val = !lit := by
  have hdst := h.dst_getLsbD_seg q .dp
  have hdp := p.dpMask_getLsbD_dp
  cases lit <;> simp only [colonWord] <;> simp_all

/-- Settles O32: both colon commands write the colon, to the value that they leave in COLON. -/
theorem colonTouchesOnlyColonBits : Obligations.ColonTouchesOnlyColonBits := by
  intro i s t hinv hi ht hrun
  have hcolon : ∃ en r, t = (s.setColon en).setResult r := by
    rcases exec_cases ht with ⟨hf, rfl⟩ | ⟨-, c, -, rfl⟩ | ⟨-, -, -, h⟩
    · rw [State.setResult_fault, hf] at hrun
      cases hrun
    · cases hrun
    · cases h with
      | colon | tcolon => all_goals exact ⟨_, _, rfl⟩
      | _ => simp [Instr.opcode] at hi
  obtain ⟨en, r, rfl⟩ := hcolon
  refine ⟨s.setColon_get en 0, s.setColon_get en 3, fun p hp => ?_⟩
  rw [State.setResult_db, State.setColon_get, if_pos hp]
  exact ⟨colonWord_xor_and (hinv.wordOk p) en, colonWord_getLsbD_dp hinv.legal p en _⟩

/-- A digit write darkens the colon bit (R22, R134). -/
theorem digitWord_getLsbD_dp {p : Params} (h : p.Legal) (k : Fin 17) (q : Fin 4) :
    (p.ct k ||| p.dst q).getLsbD (p.segBit.bit .dp).val = true := by
  rw [BitVec.getLsbD_or, h.ct_getLsbD_seg]
  simp [h.dp_notMem_glyph k]

/-- Settles O33: each of the three commands leaves the word of a symbol at the positions it writes. -/
theorem digitWritesDarkenTheColon : Obligations.DigitWritesDarkenTheColon := by
  intro i f s t p hlegal hi hf ht hrun
  obtain ⟨-, h⟩ := effect_of_exec ht hf hrun
  have hword : t.colon = s.colon ∧ ∃ k, t.db.get p = s.cfg.ct k ||| s.cfg.dst p := by
    rcases hi with ⟨rfl, ha⟩ | ⟨rfl, ha⟩ | rfl
    · cases h with
      | @digit _ _ q k hq hk =>
        obtain rfl : q = p := Fin.ext ((position?_some.1 hq).symm.trans ha)
        refine ⟨rfl, k, ?_⟩
        rw [State.setResult_db, State.writeDigit_get, if_pos rfl]
    · cases h with
      | @number _ _ d hd =>
        obtain ⟨rfl, -⟩ := digitCount?_some.1 hd
        refine ⟨by rw [State.setResult_colon, State.writeNumber_colon],
          digitSymbol (valueOperand f.t).toNat f.a.toNat p, ?_⟩
        rw [State.setResult_db, State.writeNumber_get, if_pos ha]
    · cases h with
      | message hm => exact ⟨rfl, _, s.writeMessage_get _ p⟩
  obtain ⟨hcolon, k, hword⟩ := hword
  rw [hword]
  exact ⟨hcolon, digitWord_getLsbD_dp hlegal k p⟩

end Sys2Proof.Machine
end

section
/-! The relay and timer families (41_relay.md R80 to R87, 43_timer.md R94 to R102): each command completes as its
rule says, and a timer's delay from start to expiry. -/

namespace Sys2Proof.Machine

variable {i : Instr} {s t : State}

/-! Relays. -/

/-- Turning a mask on (R98). -/
theorem maskedUpdate_on (rb m : Byte) : maskedUpdate rb m relayOn = rb ||| m := by
  apply BitVec.eq_of_getLsbD_eq
  intro j hj
  have hon : relayOn.getLsbD j = true := by interval_cases j <;> rfl
  rw [maskedUpdate_getLsbD _ _ _ hj, hon, BitVec.getLsbD_or]
  cases m.getLsbD j <;> simp

/-- Turning a mask off (R100). -/
theorem maskedUpdate_off (rb m : Byte) : maskedUpdate rb m relayOff = rb &&& ~~~m := by
  apply BitVec.eq_of_getLsbD_eq
  intro j hj
  have hoff : relayOff.getLsbD j = false := by interval_cases j <;> rfl
  rw [maskedUpdate_getLsbD _ _ _ hj, hoff, BitVec.getLsbD_and, BitVec.getLsbD_not]
  cases m.getLsbD j <;> simp [hj]

/-- Settles O36: bit by bit, the state's where the mask is 1 and RB's where it is 0. -/
theorem rsetUpdatesUnderTheMask : Obligations.RsetUpdatesUnderTheMask := by
  intro s f hf hc ht
  refine ⟨_, Effect.rset.exec_eq hf fun _ => (Instr.reservedClear_rset f).2 ⟨hc, ht⟩, rfl,
    BitVec.eq_of_getLsbD_eq fun j hj => ?_, BitVec.eq_of_getLsbD_eq fun j hj => ?_⟩ <;>
    rw [State.setResult_rb, State.relayUpdate_rb]
  · rw [BitVec.getLsbD_and, BitVec.getLsbD_and, maskedUpdate_getLsbD _ _ _ hj]
    cases f.a.getLsbD j <;> simp
  · rw [BitVec.getLsbD_and, BitVec.getLsbD_and, maskedUpdate_getLsbD _ _ _ hj, BitVec.getLsbD_not]
    cases f.a.getLsbD j <;> simp

/-- The mask of a relay number has one bit (R81). -/
theorem relayMask_getLsbD (n : Byte) (j : Nat) :
    (relayMask n).getLsbD j = decide (j = if n.toNat ≤ 7 then n.toNat else 0) := by
  by_cases hn : 1 ≤ n.toNat ∧ n.toNat ≤ 7
  · rw [relayMask_of_mem_range hn, if_pos hn.2, BitVec.getLsbD_twoPow]
    rw [decide_eq_true (by omega), Bool.true_and, decide_eq_decide, eq_comm]
  · have hzero : (if n.toNat ≤ 7 then n.toNat else 0) = 0 := by split <;> omega
    rw [relayMask_of_notMem_range hn, hzero, BitVec.getLsbD_twoPow]
    simp [eq_comm]

/-- Settles O37: a masked update with the mask of one bit. -/
theorem rsetnSetsOneRelayBit : Obligations.RsetnSetsOneRelayBit := by
  intro s f on hf hb hc ht
  have hr : (Instr.rsetn f).reservedClear = true :=
    (Instr.reservedClear_rsetn f).2 ⟨by cases on <;> simp [hb], hc, ht⟩
  have hvalue {j : Nat} (hj : j < 8) : (if on then relayOn else relayOff).getLsbD j = on := by
    cases on <;> interval_cases j <;> rfl
  have h := Effect.rsetn.exec_eq hf fun _ => hr
  rw [hb, boolOperand_of_bool] at h
  refine ⟨_, h, rfl, fun j hj => ?_⟩
  rw [State.setResult_rb, State.relayUpdate_rb, maskedUpdate_getLsbD _ _ _ hj, relayMask_getLsbD, hvalue hj]
  simp only [decide_eq_true_eq]

/-- A flag as a RESULT (R52). -/
theorem flagResult_eq (b : Bool) : flagResult b = if b then 1 else 0 := by
  cases b <;> rfl

/-- Settles O38: the three reads. -/
theorem relayReadsComplete : Obligations.RelayReadsComplete := by
  intro s f hf hb hc ht
  have hrison := Effect.rison.exec_eq hf fun _ => (Instr.reservedClear_rison f).2 ⟨hb, hc, ht⟩
  rw [flagResult_eq] at hrison
  simp only [bne_iff_ne] at hrison
  exact ⟨Effect.rget.exec_eq hf fun _ => (Instr.reservedClear_rget f).2 ⟨hb, hc, ht⟩, hrison,
    Effect.rmask.exec_eq hf fun _ => (Instr.reservedClear_rmask f).2 ⟨hb, hc, ht⟩⟩

/-- Settles O39: OE follows its pin, and gates the byte latched last. -/
theorem outputEnableGatesTheRelays : Obligations.OutputEnableGatesTheRelays := by
  intro s f hf ha hb hc ht
  refine ⟨⟨_, Effect.renable.exec_eq hf fun _ => (Instr.reservedClear_renable f).2 ⟨ha, hb, hc, ht⟩, rfl, rfl,
    fun n => Bool.and_true _⟩, ⟨_, Effect.rdisable.exec_eq hf fun _ =>
      (Instr.reservedClear_rdisable f).2 ⟨ha, hb, hc, ht⟩, rfl, rfl, fun n => Bool.and_false _⟩⟩

/-! Timers. -/

/-- Settles O46: the timer's new value, and RB with its mask on or off. -/
theorem timerWritesComplete : Obligations.TimerWritesComplete := by
  intro s f tm hf htm hc
  refine ⟨(Effect.tcfg htm).exec_eq hf fun _ => (Instr.reservedClear_tcfg f).2 hc, fun hb => ?_, fun hb ht => ?_⟩
  · rw [← maskedUpdate_on]
    exact (Effect.tstart htm).exec_eq hf fun _ => (Instr.reservedClear_tstart f).2 ⟨hb, hc⟩
  · rw [← maskedUpdate_off]
    exact (Effect.tstop htm).exec_eq hf fun _ => (Instr.reservedClear_tstop f).2 ⟨hb, hc, ht⟩

/-- A timer expires when it is Active and past its timeout (R99). -/
theorem expired_iff (tm : Timer) (now : Word32) :
    tm.expired now = true ↔ tm.active = true ∧ tm.timeoutMs.toNat < (now - tm.startTimestamp).toNat := by
  rw [Timer.expired, Bool.and_eq_true, decide_eq_true_iff]
  rfl

/-- TTICK on an expired timer makes it Idle and turns its relays off (R99). -/
theorem exec_ttick_expired {f : Fields} {tm : Timer} (hf : s.fault = false)
    (hr : (Instr.ttick f).reservedClear = true) (htm : s.timers[f.a.toNat]? = some tm)
    (hexp : tm.expired f.t = true) :
    exec (.ttick f) s = .next { s with
      timers := s.timers.set f.a.toNat { tm with active := false }
      rb := s.rb &&& ~~~tm.relayMask, result := 0 } := by
  rw [← maskedUpdate_off]
  exact (Effect.ttickExpired htm hexp).exec_eq hf fun _ => hr

/-- TTICK on any other timer answers whether it is Active (R99). -/
theorem exec_ttick_running {f : Fields} {tm : Timer} (hf : s.fault = false)
    (hr : (Instr.ttick f).reservedClear = true) (htm : s.timers[f.a.toNat]? = some tm)
    (hexp : tm.expired f.t = false) :
    exec (.ttick f) s = .next { s with result := if tm.active then 1 else 0 } := by
  rw [← flagResult_eq]
  exact (Effect.ttickRunning htm hexp).exec_eq hf fun _ => hr

/-- Settles O47: an Active timer is past its timeout or not; an Idle one does not expire. -/
theorem ttickExpiresStrictly : Obligations.TtickExpiresStrictly := by
  intro s f tm hf htm hb hc
  have hr := (Instr.reservedClear_ttick f).2 ⟨hb, hc⟩
  refine ⟨fun hactive hlt => ?_, fun hactive hle => ?_, fun hidle => ?_⟩
  · exact exec_ttick_expired hf hr htm ((expired_iff tm f.t).2 ⟨hactive, hlt⟩)
  · have hexp : tm.expired f.t = false := by
      rw [Bool.eq_false_iff, ne_eq, expired_iff]
      omega
    rw [exec_ttick_running hf hr htm hexp, if_pos hactive]
  · have hexp : tm.expired f.t = false := by
      rw [Bool.eq_false_iff, ne_eq, expired_iff, hidle]
      simp
    rw [exec_ttick_running hf hr htm hexp, if_neg (by simp [hidle])]

/-- Settles O48: the remaining time by its three cases, and the flag. -/
theorem timerReadsComplete : Obligations.TimerReadsComplete := by
  intro s f tm hf htm hb hc
  refine ⟨⟨tm.remaining f.t, (Effect.trem htm).exec_eq hf fun _ => (Instr.reservedClear_trem f).2 ⟨hb, hc⟩,
    fun hactive hle => ?_, fun hactive k hk heq => ?_, fun hidle => if_neg (by simp [hidle])⟩, fun ht => ?_⟩
  · rw [Timer.remaining, if_pos hactive]
    exact BitVec.toNat_sub_of_le hle
  · have hstart := (f.t - tm.startTimestamp).isLt
    rw [Timer.remaining, if_pos hactive, elapsed, BitVec.toNat_sub_of_lt (by rw [BitVec.lt_def]; omega), heq]
    omega
  · rw [← flagResult_eq]
    exact (Effect.tactive htm).exec_eq hf fun _ => (Instr.reservedClear_tactive f).2 ⟨hb, hc, ht⟩

/-- Settles O49: the elapsed time at `start + e` is `e`, and TTICK compares it with the timeout. -/
theorem delayOffRunsItsTimeout : Obligations.DelayOffRunsItsTimeout := by
  intro s a tm start e hf htm
  have hstart := (Effect.tstart (f := ⟨a, 0, 0, start⟩) htm).exec_eq hf
    fun _ => (Instr.reservedClear_tstart _).2 ⟨rfl, rfl⟩
  have hr : (Instr.ttick ⟨a, 0, 0, start + e⟩).reservedClear = true :=
    (Instr.reservedClear_ttick _).2 ⟨rfl, rfl⟩
  have hset := State.setTimer_getElem?_self htm { tm with startTimestamp := start, active := true }
  have hon : maskedUpdate s.rb tm.relayMask relayOn &&& tm.relayMask = tm.relayMask := by
    rw [maskedUpdate_on]
    apply BitVec.eq_of_getLsbD_eq
    intro j _
    simp +contextual [Bool.and_eq_right_iff_imp]
  have helapsed : (start + e - start).toNat = e.toNat := by rw [BitVec.add_comm, BitVec.add_sub_cancel]
  have hexpired : ({ tm with startTimestamp := start, active := true } : Timer).expired (start + e) = true ↔
      tm.timeoutMs.toNat < e.toNat := by
    rw [expired_iff, helapsed]
    exact and_iff_right rfl
  rcases Nat.lt_or_ge tm.timeoutMs.toNat e.toNat with hlt | hle
  · refine ⟨_, _, hstart, exec_ttick_expired hf hr hset (hexpired.2 hlt), hon, fun hle => by omega,
      fun _ => ⟨rfl, ?_, State.setTimer_getElem?_self hset { tm with startTimestamp := start, active := false }⟩⟩
    exact (BitVec.and_assoc _ _ _).trans (by rw [BitVec.and_comm (~~~_), BitVec.and_not_self]; exact BitVec.and_zero)
  · have hrunning := Bool.eq_false_iff.2 fun h => Nat.not_lt.2 hle (hexpired.1 h)
    exact ⟨_, _, hstart, exec_ttick_running hf hr hset hrunning, hon, fun _ => ⟨rfl, rfl, hset⟩,
      fun hlt => by omega⟩

/-- What a timer command makes of its timer and of RB, with its RESULT (R97 to R102). -/
def timerRule (i : Instr) (tm : Timer) (rb : Byte) : Timer × Byte × Word32 :=
  match i with
  | .tcfg f => (⟨f.b, f.t, 0, false⟩, rb, 0)
  | .tstart f => ({ tm with startTimestamp := f.t, active := true }, maskedUpdate rb tm.relayMask relayOn, 0)
  | .ttick f =>
    if tm.expired f.t then ({ tm with active := false }, maskedUpdate rb tm.relayMask relayOff, 0)
    else (tm, rb, flagResult tm.active)
  | .tstop _ => ({ tm with active := false }, maskedUpdate rb tm.relayMask relayOff, 0)
  | .trem f => (tm, rb, tm.remaining f.t)
  | .tactive _ => (tm, rb, flagResult tm.active)
  | _ => (tm, rb, 0)

/-- A timer command is that map of its timer and of RB, and of nothing else (R96). -/
theorem exec_timer {tm : Timer} (hi : i.opcode.toNat ∈ [0x40, 0x41, 0x42, 0x43, 0x44, 0x45]) (hf : s.fault = false)
    (hr : i.reservedClear = true) (htm : s.timers[i.fields.a.toNat]? = some tm) :
    exec i s = .next { s with
      timers := s.timers.set i.fields.a.toNat (timerRule i tm s.rb).1
      rb := (timerRule i tm s.rb).2.1
      result := (timerRule i tm s.rb).2.2 } := by
  have hsame : s.timers.set i.fields.a.toNat tm = s.timers := by
    obtain ⟨hlt, rfl⟩ := List.getElem?_eq_some_iff.1 htm
    exact List.set_getElem_self hlt
  cases i with
  | tcfg f => exact (Effect.tcfg htm).exec_eq hf fun _ => hr
  | tstart f => exact (Effect.tstart htm).exec_eq hf fun _ => hr
  | ttick f =>
    cases hexp : tm.expired f.t with
    | true =>
      simp only [timerRule, hexp, if_true]
      exact (Effect.ttickExpired htm hexp).exec_eq hf fun _ => hr
    | false =>
      simp only [timerRule, hexp, Bool.false_eq_true, if_false, hsame]
      exact (Effect.ttickRunning htm hexp).exec_eq hf fun _ => hr
  | tstop f => exact (Effect.tstop htm).exec_eq hf fun _ => hr
  | trem f =>
    simp only [timerRule, hsame]
    exact (Effect.trem htm).exec_eq hf fun _ => hr
  | tactive f =>
    simp only [timerRule, hsame]
    exact (Effect.tactive htm).exec_eq hf fun _ => hr
  | _ f => simp [Instr.opcode] at hi

/-- Settles O50: the frame of the six commands, and the map above for two machines that share its arguments. -/
theorem timersAreIndependent : Obligations.TimersAreIndependent := by
  refine ⟨fun i s t hi ht => ⟨?_, exec_timers_length ht, fun j hj => ?_⟩,
    fun i s s' t t' tm hi hfault hrb htm htm' ht ht' => ?_⟩
  · have ht := exec_eq_patch ht
    cases i with
    | tcfg f | tstart f | ttick f | tstop f | trem f | tactive f => all_goals (rw [ht]; rfl)
    | _ f => simp [Instr.opcode] at hi
  · rcases exec_timers ht with heq | ⟨old, tm, -, heq, -⟩
    · rw [heq]
    · rw [heq, State.setTimer_get, if_neg (Ne.symm hj)]
  · have hC : i.agent = .C := by
      cases i with
      | fsample f => simp [Instr.opcode] at hi
      | _ f => rfl
    have hne : i ≠ .status ⟨0, 0, 0, 0⟩ := by
      rintro rfl
      simp [Instr.opcode] at hi
    cases hf : s.fault with
    | true =>
      rw [exec_halted hf hC hne] at ht
      rw [exec_halted (hfault ▸ hf) hC hne] at ht'
      rw [← next_inj.1 ht, ← next_inj.1 ht']
      exact ⟨htm.trans htm'.symm, hrb, rfl, hfault⟩
    | false =>
      cases hr : i.reservedClear with
      | false =>
        rw [exec_reserved hf hC hr] at ht
        rw [exec_reserved (hfault ▸ hf) hC hr] at ht'
        rw [← next_inj.1 ht, ← next_inj.1 ht']
        exact ⟨htm.trans htm'.symm, hrb, rfl, rfl⟩
      | true =>
        rw [exec_timer hi hf hr htm] at ht
        rw [exec_timer hi (hfault ▸ hf) hr htm', ← hrb] at ht'
        rw [← next_inj.1 ht, ← next_inj.1 ht']
        obtain ⟨hlt, -⟩ := List.getElem?_eq_some_iff.1 htm
        obtain ⟨hlt', -⟩ := List.getElem?_eq_some_iff.1 htm'
        exact ⟨(List.getElem?_set_self hlt).trans (List.getElem?_set_self hlt').symm, rfl, rfl, hfault⟩

end Sys2Proof.Machine
end
